-- ==== Sys2Proof/Word.lean ====
section
/-! DEFINITION. The word types of the KDF11-BA (spec/00_scope.md R6, R13): names for bit vectors, nothing else. -/

namespace Sys2Proof

/-- A word: 16 bits, bit 15 the most significant (R13). -/
abbrev Word := BitVec 16

/-- A byte: 8 bits, the addressable unit (spec/20_memory.md R100). -/
abbrev Byte := BitVec 8

/-- A canonical 22-bit physical address; 17760000 (octal) and above is the I/O page (spec/20_memory.md R111). -/
abbrev PAddr := BitVec 22

/-- A floating-point accumulator or value: 64 bits (spec/10_state.md R55). -/
abbrev Quad := BitVec 64

end Sys2Proof
end

