-- ==== Sys2Proof/Syntax.lean ====
section
/-! DEFINITION. The instructions of the KDF11-BA, one constructor for each mnemonic of spec/opcode_table.json
(spec/30_encoding.md R225 to R231).

An instruction here is its op-code word (R200): index, immediate, absolute and in-line words follow it in memory and
are fetched through the PC while the instruction runs. -/

namespace Sys2Proof

/-- The register field of an operand (spec/10_state.md R20): R6 is the stack pointer, R7 the program counter. -/
inductive Reg where
  | r0
  | r1
  | r2
  | r3
  | r4
  | r5
  | sp
  | pc
  deriving DecidableEq, Repr

/-- The mode field of an operand (spec/40_addressing_modes.md R240 to R253), mode 0 to mode 7 in order. -/
inductive AddrMode where
  /-- Mode 0, `Rn`. -/
  | register
  /-- Mode 1, `(Rn)`. -/
  | registerDeferred
  /-- Mode 2, `(Rn)+`. -/
  | autoinc
  /-- Mode 3, `@(Rn)+`. -/
  | autoincDeferred
  /-- Mode 4, `-(Rn)`. -/
  | autodec
  /-- Mode 5, `@-(Rn)`. -/
  | autodecDeferred
  /-- Mode 6, `X(Rn)`. -/
  | index
  /-- Mode 7, `@X(Rn)`. -/
  | indexDeferred
  deriving DecidableEq, Repr

/-- A six-bit operand field (R201). In mode 0 of an FSRC or FDST field the register number names a floating
accumulator (spec/46_fp_state.md R480). -/
structure Operand where
  mode : AddrMode
  reg : Reg
  deriving DecidableEq, Repr

/-- The two-bit accumulator field of a floating-point instruction (R211). -/
inductive Ac where
  | ac0
  | ac1
  | ac2
  | ac3
  deriving DecidableEq, Repr

/-- The instructions. The rule named at each constructor says what it does; `reserved` and `fpIllegal` carry the word,
for the ranges of R216 and R218 (c). `clearCodes` and `setCodes` are the generic rows `Ccc` and `Scc`, for the masks that
have no mnemonic of their own (R209). -/
inductive Instr where
  /-- HALT, R430. -/
  | halt
  /-- WAIT, R431. -/
  | wait
  /-- RTI, R409. -/
  | rti
  /-- BPT, R407. -/
  | bpt
  /-- IOT, R408. -/
  | iot
  /-- RESET, R432. -/
  | reset
  /-- RTT, R410. -/
  | rtt
  /-- MFPT, R434. -/
  | mfpt
  /-- JMP, R400. -/
  | jmp (dst : Operand)
  /-- RTS, R402. -/
  | rts (r : Reg)
  /-- NOP, R433. -/
  | nop
  /-- CLC, R440. -/
  | clc
  /-- CLV, R440. -/
  | clv
  /-- CLZ, R440. -/
  | clz
  /-- CLN, R440. -/
  | cln
  /-- CCC, R440. -/
  | ccc
  /-- Ccc, R440. -/
  | clearCodes (mask : BitVec 4)
  /-- SEC, R441. -/
  | sec
  /-- SEV, R441. -/
  | sev
  /-- SEZ, R441. -/
  | sez
  /-- SEN, R441. -/
  | sen
  /-- SCC, R441. -/
  | scc
  /-- Scc, R441. -/
  | setCodes (mask : BitVec 4)
  /-- SWAB, R304. -/
  | swab (dst : Operand)
  /-- BR, R371. -/
  | br (offset : Byte)
  /-- BNE, R372. -/
  | bne (offset : Byte)
  /-- BEQ, R373. -/
  | beq (offset : Byte)
  /-- BGE, R380. -/
  | bge (offset : Byte)
  /-- BLT, R381. -/
  | blt (offset : Byte)
  /-- BGT, R382. -/
  | bgt (offset : Byte)
  /-- BLE, R383. -/
  | ble (offset : Byte)
  /-- BPL, R374. -/
  | bpl (offset : Byte)
  /-- BMI, R375. -/
  | bmi (offset : Byte)
  /-- BHI, R384. -/
  | bhi (offset : Byte)
  /-- BLOS, R385. -/
  | blos (offset : Byte)
  /-- BVC, R376. -/
  | bvc (offset : Byte)
  /-- BVS, R377. -/
  | bvs (offset : Byte)
  /-- BCC, R378. -/
  | bcc (offset : Byte)
  /-- BCS, R379. -/
  | bcs (offset : Byte)
  /-- JSR, R401. -/
  | jsr (r : Reg) (dst : Operand)
  /-- CLR, R280. -/
  | clr (dst : Operand)
  /-- CLRB, R280. -/
  | clrb (dst : Operand)
  /-- COM, R281. -/
  | com (dst : Operand)
  /-- COMB, R281. -/
  | comb (dst : Operand)
  /-- INC, R282. -/
  | inc (dst : Operand)
  /-- INCB, R282. -/
  | incb (dst : Operand)
  /-- DEC, R283. -/
  | dec (dst : Operand)
  /-- DECB, R283. -/
  | decb (dst : Operand)
  /-- NEG, R284. -/
  | neg (dst : Operand)
  /-- NEGB, R284. -/
  | negb (dst : Operand)
  /-- ADC, R285. -/
  | adc (dst : Operand)
  /-- ADCB, R285. -/
  | adcb (dst : Operand)
  /-- SBC, R286. -/
  | sbc (dst : Operand)
  /-- SBCB, R286. -/
  | sbcb (dst : Operand)
  /-- TST, R287. -/
  | tst (dst : Operand)
  /-- TSTB, R287. -/
  | tstb (dst : Operand)
  /-- ROR, R290. -/
  | ror (dst : Operand)
  /-- RORB, R290. -/
  | rorb (dst : Operand)
  /-- ROL, R291. -/
  | rol (dst : Operand)
  /-- ROLB, R291. -/
  | rolb (dst : Operand)
  /-- ASR, R292. -/
  | asr (dst : Operand)
  /-- ASRB, R292. -/
  | asrb (dst : Operand)
  /-- ASL, R293. -/
  | asl (dst : Operand)
  /-- ASLB, R293. -/
  | aslb (dst : Operand)
  /-- MARK, R404. -/
  | mark (nn : BitVec 6)
  /-- MFPI, R450. -/
  | mfpi (src : Operand)
  /-- MTPI, R452. -/
  | mtpi (dst : Operand)
  /-- SXT, R305. -/
  | sxt (dst : Operand)
  /-- MOV, R331. -/
  | mov (src dst : Operand)
  /-- MOVB, R332. -/
  | movb (src dst : Operand)
  /-- CMP, R333. -/
  | cmp (src dst : Operand)
  /-- CMPB, R333. -/
  | cmpb (src dst : Operand)
  /-- BIT, R334. -/
  | bit (src dst : Operand)
  /-- BITB, R334. -/
  | bitb (src dst : Operand)
  /-- BIC, R335. -/
  | bic (src dst : Operand)
  /-- BICB, R335. -/
  | bicb (src dst : Operand)
  /-- BIS, R336. -/
  | bis (src dst : Operand)
  /-- BISB, R336. -/
  | bisb (src dst : Operand)
  /-- ADD, R337. -/
  | add (src dst : Operand)
  /-- SUB, R338. -/
  | sub (src dst : Operand)
  /-- MUL, R346. -/
  | mul (r : Reg) (src : Operand)
  /-- DIV, R347. -/
  | div (r : Reg) (src : Operand)
  /-- ASH, R348. -/
  | ash (r : Reg) (src : Operand)
  /-- ASHC, R349. -/
  | ashc (r : Reg) (src : Operand)
  /-- XOR, R345. -/
  | xor (r : Reg) (dst : Operand)
  /-- SOB, R390. -/
  | sob (r : Reg) (nn : BitVec 6)
  /-- EMT, R405. -/
  | emt (code : Byte)
  /-- TRAP, R406. -/
  | trap (code : Byte)
  /-- MTPS, R455. -/
  | mtps (src : Operand)
  /-- MFPD, R451. -/
  | mfpd (src : Operand)
  /-- MTPD, R453. -/
  | mtpd (dst : Operand)
  /-- MFPS, R454. -/
  | mfps (dst : Operand)
  /-- CFCC, R520. -/
  | cfcc
  /-- SETF, R521. -/
  | setf
  /-- SETI, R523. -/
  | seti
  /-- SETD, R522. -/
  | setd
  /-- SETL, R524. -/
  | setl
  /-- LDFPS, R525. -/
  | ldfps (src : Operand)
  /-- STFPS, R526. -/
  | stfps (dst : Operand)
  /-- STST, R527. -/
  | stst (dst : Operand)
  /-- CLRF, R530. -/
  | clrf (fdst : Operand)
  /-- TSTF, R531. -/
  | tstf (fdst : Operand)
  /-- ABSF, R532. -/
  | absf (fdst : Operand)
  /-- NEGF, R533. -/
  | negf (fdst : Operand)
  /-- MULF, R542. -/
  | mulf (ac : Ac) (fsrc : Operand)
  /-- MODF, R544. -/
  | modf (ac : Ac) (fsrc : Operand)
  /-- ADDF, R540. -/
  | addf (ac : Ac) (fsrc : Operand)
  /-- LDF, R534. -/
  | ldf (ac : Ac) (fsrc : Operand)
  /-- SUBF, R541. -/
  | subf (ac : Ac) (fsrc : Operand)
  /-- CMPF, R545. -/
  | cmpf (ac : Ac) (fsrc : Operand)
  /-- STF, R535. -/
  | stf (ac : Ac) (fdst : Operand)
  /-- DIVF, R543. -/
  | divf (ac : Ac) (fsrc : Operand)
  /-- STEXP, R550. -/
  | stexp (ac : Ac) (dst : Operand)
  /-- STCFI, R553. -/
  | stcfi (ac : Ac) (dst : Operand)
  /-- STCFD, R555. -/
  | stcfd (ac : Ac) (fdst : Operand)
  /-- LDEXP, R551. -/
  | ldexp (ac : Ac) (src : Operand)
  /-- LDCIF, R552. -/
  | ldcif (ac : Ac) (src : Operand)
  /-- LDCDF, R554. -/
  | ldcdf (ac : Ac) (fsrc : Operand)
  /-- L2Dr, R585. -/
  | l2d (r : Reg)
  /-- L3Dr, R586. -/
  | l3d (r : Reg)
  /-- MOVC, R600. -/
  | movc
  /-- MOVCI, R600. -/
  | movci
  /-- MOVRC, R601. -/
  | movrc
  /-- MOVRCI, R601. -/
  | movrci
  /-- MOVTC, R602. -/
  | movtc
  /-- MOVTCI, R602. -/
  | movtci
  /-- LOCC, R605. -/
  | locc
  /-- LOCCI, R605. -/
  | locci
  /-- SKPC, R606. -/
  | skpc
  /-- SKPCI, R606. -/
  | skpci
  /-- SCANC, R607. -/
  | scanc
  /-- SCANCI, R607. -/
  | scanci
  /-- SPANC, R608. -/
  | spanc
  /-- SPANCI, R608. -/
  | spanci
  /-- CMPC, R610. -/
  | cmpc
  /-- CMPCI, R610. -/
  | cmpci
  /-- MATC, R611. -/
  | matc
  /-- MATCI, R611. -/
  | matci
  /-- ADDN, R660. -/
  | addn
  /-- ADDNI, R660. -/
  | addni
  /-- SUBN, R661. -/
  | subn
  /-- SUBNI, R661. -/
  | subni
  /-- CMPN, R664. -/
  | cmpn
  /-- CMPNI, R664. -/
  | cmpni
  /-- CVTNL, R670. -/
  | cvtnl
  /-- CVTNLI, R670. -/
  | cvtnli
  /-- CVTPN, R675. -/
  | cvtpn
  /-- CVTPNI, R675. -/
  | cvtpni
  /-- CVTNP, R674. -/
  | cvtnp
  /-- CVTNPI, R674. -/
  | cvtnpi
  /-- ASHN, R666. -/
  | ashn
  /-- ASHNI, R666. -/
  | ashni
  /-- CVTLN, R672. -/
  | cvtln
  /-- CVTLNI, R672. -/
  | cvtlni
  /-- ADDP, R660. -/
  | addp
  /-- ADDPI, R660. -/
  | addpi
  /-- SUBP, R661. -/
  | subp
  /-- SUBPI, R661. -/
  | subpi
  /-- CMPP, R664. -/
  | cmpp
  /-- CMPPI, R664. -/
  | cmppi
  /-- CVTPL, R670. -/
  | cvtpl
  /-- CVTPLI, R670. -/
  | cvtpli
  /-- MULP, R662. -/
  | mulp
  /-- MULPI, R662. -/
  | mulpi
  /-- DIVP, R663. -/
  | divp
  /-- DIVPI, R663. -/
  | divpi
  /-- ASHP, R666. -/
  | ashp
  /-- ASHPI, R666. -/
  | ashpi
  /-- CVTLP, R672. -/
  | cvtlp
  /-- CVTLPI, R672. -/
  | cvtlpi
  /-- RESERVED, R216. -/
  | reserved (word : Word)
  /-- FP_ILLEGAL, R218. -/
  | fpIllegal (word : Word)
  deriving DecidableEq, Repr

end Sys2Proof
end

