-- ==== Sys2Proof/WellFormed.lean ====
section
/-! DEFINITION. Which terms of `Instr` stand for a word of the machine.

Every field already has the width its encoding gives it, so a term is ill-formed in two ways only: a generic
condition-code term whose mask has a mnemonic of its own, and a `reserved` or `fpIllegal` term around a word that is
not one of those. -/

namespace Sys2Proof

/-- The reserved words of spec/30_encoding.md R216 and of the RESERVED rows of the op-code table, as (match, mask). -/
def reservedRows : List (Nat × Nat) :=
  [(0o000010, 0o177770), (0o000020, 0o177760), (0o000040, 0o177740), (0o000210, 0o177770), (0o000220, 0o177760),
   (0o007000, 0o177000), (0o075000, 0o177000), (0o076000, 0o177760), (0o076033, 0o177777), (0o076034, 0o177774),
   (0o076046, 0o177776), (0o076100, 0o177760), (0o076120, 0o177770), (0o076133, 0o177777), (0o076134, 0o177774),
   (0o076146, 0o177776), (0o076160, 0o177770), (0o076200, 0o177600), (0o076400, 0o177400), (0o107000, 0o177000)]

/-- The unassigned words of the floating-point no-operand group, R218 (c), as (match, mask). -/
def fpIllegalRows : List (Nat × Nat) :=
  [(0o170003, 0o177777), (0o170004, 0o177774), (0o170010, 0o177777), (0o170013, 0o177777), (0o170014, 0o177774),
   (0o170020, 0o177760), (0o170040, 0o177740)]

/-- The word lies in one of the rows (R221). -/
def inRows (rows : List (Nat × Nat)) (w : Word) : Bool :=
  rows.any fun row => w.toNat &&& row.2 == row.1

/-- Masks of the clear group that have a mnemonic: NOP, CLC, CLV, CLZ, CLN, CCC (R209). -/
def namedClearMask (mask : BitVec 4) : Bool :=
  mask == 0 || mask == 1 || mask == 2 || mask == 4 || mask == 8 || mask == 15

/-- Masks of the set group that have a mnemonic: SEC, SEV, SEZ, SEN, SCC (R209). -/
def namedSetMask (mask : BitVec 4) : Bool :=
  mask == 1 || mask == 2 || mask == 4 || mask == 8 || mask == 15

/-- The term stands for a word of the machine. -/
def Instr.wellFormed : Instr → Bool
  | .clearCodes mask => !namedClearMask mask
  | .setCodes mask => !namedSetMask mask
  | .reserved w => inRows reservedRows w
  | .fpIllegal w => inRows fpIllegalRows w
  | .halt => true
  | .wait => true
  | .rti => true
  | .bpt => true
  | .iot => true
  | .reset => true
  | .rtt => true
  | .mfpt => true
  | .jmp _ => true
  | .rts _ => true
  | .nop => true
  | .clc => true
  | .clv => true
  | .clz => true
  | .cln => true
  | .ccc => true
  | .sec => true
  | .sev => true
  | .sez => true
  | .sen => true
  | .scc => true
  | .swab _ => true
  | .br _ => true
  | .bne _ => true
  | .beq _ => true
  | .bge _ => true
  | .blt _ => true
  | .bgt _ => true
  | .ble _ => true
  | .bpl _ => true
  | .bmi _ => true
  | .bhi _ => true
  | .blos _ => true
  | .bvc _ => true
  | .bvs _ => true
  | .bcc _ => true
  | .bcs _ => true
  | .jsr _ _ => true
  | .clr _ => true
  | .clrb _ => true
  | .com _ => true
  | .comb _ => true
  | .inc _ => true
  | .incb _ => true
  | .dec _ => true
  | .decb _ => true
  | .neg _ => true
  | .negb _ => true
  | .adc _ => true
  | .adcb _ => true
  | .sbc _ => true
  | .sbcb _ => true
  | .tst _ => true
  | .tstb _ => true
  | .ror _ => true
  | .rorb _ => true
  | .rol _ => true
  | .rolb _ => true
  | .asr _ => true
  | .asrb _ => true
  | .asl _ => true
  | .aslb _ => true
  | .mark _ => true
  | .mfpi _ => true
  | .mtpi _ => true
  | .sxt _ => true
  | .mov _ _ => true
  | .movb _ _ => true
  | .cmp _ _ => true
  | .cmpb _ _ => true
  | .bit _ _ => true
  | .bitb _ _ => true
  | .bic _ _ => true
  | .bicb _ _ => true
  | .bis _ _ => true
  | .bisb _ _ => true
  | .add _ _ => true
  | .sub _ _ => true
  | .mul _ _ => true
  | .div _ _ => true
  | .ash _ _ => true
  | .ashc _ _ => true
  | .xor _ _ => true
  | .sob _ _ => true
  | .emt _ => true
  | .trap _ => true
  | .mtps _ => true
  | .mfpd _ => true
  | .mtpd _ => true
  | .mfps _ => true
  | .cfcc => true
  | .setf => true
  | .seti => true
  | .setd => true
  | .setl => true
  | .ldfps _ => true
  | .stfps _ => true
  | .stst _ => true
  | .clrf _ => true
  | .tstf _ => true
  | .absf _ => true
  | .negf _ => true
  | .mulf _ _ => true
  | .modf _ _ => true
  | .addf _ _ => true
  | .ldf _ _ => true
  | .subf _ _ => true
  | .cmpf _ _ => true
  | .stf _ _ => true
  | .divf _ _ => true
  | .stexp _ _ => true
  | .stcfi _ _ => true
  | .stcfd _ _ => true
  | .ldexp _ _ => true
  | .ldcif _ _ => true
  | .ldcdf _ _ => true
  | .l2d _ => true
  | .l3d _ => true
  | .movc => true
  | .movci => true
  | .movrc => true
  | .movrci => true
  | .movtc => true
  | .movtci => true
  | .locc => true
  | .locci => true
  | .skpc => true
  | .skpci => true
  | .scanc => true
  | .scanci => true
  | .spanc => true
  | .spanci => true
  | .cmpc => true
  | .cmpci => true
  | .matc => true
  | .matci => true
  | .addn => true
  | .addni => true
  | .subn => true
  | .subni => true
  | .cmpn => true
  | .cmpni => true
  | .cvtnl => true
  | .cvtnli => true
  | .cvtpn => true
  | .cvtpni => true
  | .cvtnp => true
  | .cvtnpi => true
  | .ashn => true
  | .ashni => true
  | .cvtln => true
  | .cvtlni => true
  | .addp => true
  | .addpi => true
  | .subp => true
  | .subpi => true
  | .cmpp => true
  | .cmppi => true
  | .cvtpl => true
  | .cvtpli => true
  | .mulp => true
  | .mulpi => true
  | .divp => true
  | .divpi => true
  | .ashp => true
  | .ashpi => true
  | .cvtlp => true
  | .cvtlpi => true

end Sys2Proof
end

