-- ==== Sys2Proof/Decode.lean ====
section
/-! DEFINITION. The decoder and, after it, the encoder, both written from the tables of spec/30_encoding.md
(R225 to R231). The decoder reads bytes as the machine stores them: the low byte of a word first (spec/20_memory.md R100,
R102). It is total on words (R232) and refuses, by name, a byte string too short to hold an op-code word. -/

namespace Sys2Proof

/-- The field of `len` bits of `w` that starts at bit `lo`, as a number. -/
def field (w : Word) (lo len : Nat) : Nat :=
  (w.extractLsb' lo len).toNat

/-- The register a three-bit field names (R201). -/
def Reg.ofField : Nat → Reg
  | 0 => .r0
  | 1 => .r1
  | 2 => .r2
  | 3 => .r3
  | 4 => .r4
  | 5 => .r5
  | 6 => .sp
  | _ => .pc

/-- The number of a register. -/
def Reg.bits : Reg → BitVec 3
  | .r0 => 0
  | .r1 => 1
  | .r2 => 2
  | .r3 => 3
  | .r4 => 4
  | .r5 => 5
  | .sp => 6
  | .pc => 7

/-- The addressing mode a three-bit field names (R201). -/
def AddrMode.ofField : Nat → AddrMode
  | 0 => .register
  | 1 => .registerDeferred
  | 2 => .autoinc
  | 3 => .autoincDeferred
  | 4 => .autodec
  | 5 => .autodecDeferred
  | 6 => .index
  | _ => .indexDeferred

/-- The number of an addressing mode. -/
def AddrMode.bits : AddrMode → BitVec 3
  | .register => 0
  | .registerDeferred => 1
  | .autoinc => 2
  | .autoincDeferred => 3
  | .autodec => 4
  | .autodecDeferred => 5
  | .index => 6
  | .indexDeferred => 7

/-- The accumulator a two-bit field names (R211). -/
def Ac.ofField : Nat → Ac
  | 0 => .ac0
  | 1 => .ac1
  | 2 => .ac2
  | _ => .ac3

/-- The number of an accumulator. -/
def Ac.bits : Ac → BitVec 2
  | .ac0 => 0
  | .ac1 => 1
  | .ac2 => 2
  | .ac3 => 3

/-- The six bits of an operand field: mode, then register (R201). -/
def Operand.bits (o : Operand) : BitVec 6 :=
  o.mode.bits ++ o.reg.bits

/-- The register field in bits `lo + 2` to `lo`. -/
def regAt (w : Word) (lo : Nat) : Reg :=
  Reg.ofField (field w lo 3)

/-- The operand field in bits `lo + 5` to `lo`. -/
def operandAt (w : Word) (lo : Nat) : Operand :=
  { mode := AddrMode.ofField (field w (lo + 3) 3), reg := regAt w lo }

/-- The destination (or only) operand field, bits 5 to 0. -/
def dstOf (w : Word) : Operand := operandAt w 0

/-- The source operand field of a double-operand instruction, bits 11 to 6. -/
def srcOf (w : Word) : Operand := operandAt w 6

/-- The register field of the register-and-operand format, bits 8 to 6 (R204). -/
def regOf (w : Word) : Reg := regAt w 6

/-- The accumulator field, bits 7 to 6 (R211). -/
def acOf (w : Word) : Ac := Ac.ofField (field w 6 2)

/-- The low byte: a branch offset or a trap code (R205, R208). -/
def lowByteOf (w : Word) : Byte := w.extractLsb' 0 8

/-- Bits 5 to 0 as a number of words (R206, R207). -/
def sixOf (w : Word) : BitVec 6 := w.extractLsb' 0 6

/-- Words 000000 to 000077: the no-operand instructions (R210) and the reserved words after them (R216). -/
def decodeNoOperand (w : Word) : Instr :=
  match field w 0 6 with
  | 0 => .halt
  | 1 => .wait
  | 2 => .rti
  | 3 => .bpt
  | 4 => .iot
  | 5 => .reset
  | 6 => .rtt
  | 7 => .mfpt
  | _ => .reserved w

/-- The clear group 000240 to 000257: bits 3 to 0 select N, Z, V, C (R209). -/
def decodeClear (w : Word) : Instr :=
  match field w 0 4 with
  | 0 => .nop
  | 1 => .clc
  | 2 => .clv
  | 4 => .clz
  | 8 => .cln
  | 15 => .ccc
  | _ => .clearCodes (w.extractLsb' 0 4)

/-- The set group 000260 to 000277 (R209). -/
def decodeSet (w : Word) : Instr :=
  match field w 0 4 with
  | 1 => .sec
  | 2 => .sev
  | 4 => .sez
  | 8 => .sen
  | 15 => .scc
  | _ => .setCodes (w.extractLsb' 0 4)

/-- Words 000200 to 000277: RTS, reserved, condition codes (R207, R209). -/
def decodeRtsGroup (w : Word) : Instr :=
  match field w 3 3 with
  | 0 => .rts (regAt w 0)
  | 4 | 5 => decodeClear w
  | 6 | 7 => decodeSet w
  | _ => .reserved w

/-- Words 000000 to 000377. -/
def decodeLow (w : Word) : Instr :=
  match field w 6 2 with
  | 0 => decodeNoOperand w
  | 1 => .jmp (dstOf w)
  | 2 => decodeRtsGroup w
  | _ => .swab (dstOf w)

/-- Words 005000 to 006777: single operand, MARK, MFPI, MTPI, SXT (R202, R207). -/
def decodeSingle (w : Word) : Instr :=
  match field w 6 6 with
  | 0o50 => .clr (dstOf w)
  | 0o51 => .com (dstOf w)
  | 0o52 => .inc (dstOf w)
  | 0o53 => .dec (dstOf w)
  | 0o54 => .neg (dstOf w)
  | 0o55 => .adc (dstOf w)
  | 0o56 => .sbc (dstOf w)
  | 0o57 => .tst (dstOf w)
  | 0o60 => .ror (dstOf w)
  | 0o61 => .rol (dstOf w)
  | 0o62 => .asr (dstOf w)
  | 0o63 => .asl (dstOf w)
  | 0o64 => .mark (sixOf w)
  | 0o65 => .mfpi (dstOf w)
  | 0o66 => .mtpi (dstOf w)
  | 0o67 => .sxt (dstOf w)
  | _ => .reserved w

/-- Words 105000 to 106777: the byte forms, MTPS, MFPD, MTPD, MFPS (R220). -/
def decodeSingleByte (w : Word) : Instr :=
  match field w 6 6 with
  | 0o50 => .clrb (dstOf w)
  | 0o51 => .comb (dstOf w)
  | 0o52 => .incb (dstOf w)
  | 0o53 => .decb (dstOf w)
  | 0o54 => .negb (dstOf w)
  | 0o55 => .adcb (dstOf w)
  | 0o56 => .sbcb (dstOf w)
  | 0o57 => .tstb (dstOf w)
  | 0o60 => .rorb (dstOf w)
  | 0o61 => .rolb (dstOf w)
  | 0o62 => .asrb (dstOf w)
  | 0o63 => .aslb (dstOf w)
  | 0o64 => .mtps (dstOf w)
  | 0o65 => .mfpd (dstOf w)
  | 0o66 => .mtpd (dstOf w)
  | 0o67 => .mfps (dstOf w)
  | _ => .reserved w

/-- Words 000000 to 007777 (R225). -/
def decode00 (w : Word) : Instr :=
  match field w 8 4 with
  | 0 => decodeLow w
  | 1 => .br (lowByteOf w)
  | 2 => .bne (lowByteOf w)
  | 3 => .beq (lowByteOf w)
  | 4 => .bge (lowByteOf w)
  | 5 => .blt (lowByteOf w)
  | 6 => .bgt (lowByteOf w)
  | 7 => .ble (lowByteOf w)
  | 8 | 9 => .jsr (regOf w) (dstOf w)
  | 10 | 11 | 12 | 13 => decodeSingle w
  | _ => .reserved w

/-- Words 100000 to 107777 (R228). -/
def decode10 (w : Word) : Instr :=
  match field w 8 4 with
  | 0 => .bpl (lowByteOf w)
  | 1 => .bmi (lowByteOf w)
  | 2 => .bhi (lowByteOf w)
  | 3 => .blos (lowByteOf w)
  | 4 => .bvc (lowByteOf w)
  | 5 => .bvs (lowByteOf w)
  | 6 => .bcc (lowByteOf w)
  | 7 => .bcs (lowByteOf w)
  | 8 => .emt (lowByteOf w)
  | 9 => .trap (lowByteOf w)
  | 10 | 11 | 12 | 13 => decodeSingleByte w
  | _ => .reserved w

/-- The register forms of 07603X and 07613X, character move (R231). -/
def decodeMove (w : Word) : Instr :=
  match field w 0 3 with
  | 0 => .movc
  | 1 => .movrc
  | 2 => .movtc
  | _ => .reserved w

/-- The in-line forms of 07603X and 07613X, character move (R231). -/
def decodeMoveInline (w : Word) : Instr :=
  match field w 0 3 with
  | 0 => .movci
  | 1 => .movrci
  | 2 => .movtci
  | _ => .reserved w

/-- The register forms of 07604X and 07614X, character search (R231). -/
def decodeSearch (w : Word) : Instr :=
  match field w 0 3 with
  | 0 => .locc
  | 1 => .skpc
  | 2 => .scanc
  | 3 => .spanc
  | 4 => .cmpc
  | 5 => .matc
  | _ => .reserved w

/-- The in-line forms of 07604X and 07614X, character search (R231). -/
def decodeSearchInline (w : Word) : Instr :=
  match field w 0 3 with
  | 0 => .locci
  | 1 => .skpci
  | 2 => .scanci
  | 3 => .spanci
  | 4 => .cmpci
  | 5 => .matci
  | _ => .reserved w

/-- The register forms of 07605X and 07615X, numeric strings (R231). -/
def decodeNumeric (w : Word) : Instr :=
  match field w 0 3 with
  | 0 => .addn
  | 1 => .subn
  | 2 => .cmpn
  | 3 => .cvtnl
  | 4 => .cvtpn
  | 5 => .cvtnp
  | 6 => .ashn
  | _ => .cvtln

/-- The in-line forms of 07605X and 07615X, numeric strings (R231). -/
def decodeNumericInline (w : Word) : Instr :=
  match field w 0 3 with
  | 0 => .addni
  | 1 => .subni
  | 2 => .cmpni
  | 3 => .cvtnli
  | 4 => .cvtpni
  | 5 => .cvtnpi
  | 6 => .ashni
  | _ => .cvtlni

/-- The register forms of 07607X and 07617X, packed strings (R231). -/
def decodePacked (w : Word) : Instr :=
  match field w 0 3 with
  | 0 => .addp
  | 1 => .subp
  | 2 => .cmpp
  | 3 => .cvtpl
  | 4 => .mulp
  | 5 => .divp
  | 6 => .ashp
  | _ => .cvtlp

/-- The in-line forms of 07607X and 07617X, packed strings (R231). -/
def decodePackedInline (w : Word) : Instr :=
  match field w 0 3 with
  | 0 => .addpi
  | 1 => .subpi
  | 2 => .cmppi
  | 3 => .cvtpli
  | 4 => .mulpi
  | 5 => .divpi
  | 6 => .ashpi
  | _ => .cvtlpi

/-- Words 076000 to 076777, the commercial instruction set (R212, R231). -/
def decodeCis (w : Word) : Instr :=
  match field w 3 6 with
  | 2 => .l2d (regAt w 0)
  | 3 => decodeMove w
  | 4 => decodeSearch w
  | 5 => decodeNumeric w
  | 6 => .l3d (regAt w 0)
  | 7 => decodePacked w
  | 11 => decodeMoveInline w
  | 12 => decodeSearchInline w
  | 13 => decodeNumericInline w
  | 15 => decodePackedInline w
  | _ => .reserved w

/-- Words 070000 to 077777 (R227). -/
def decode07 (w : Word) : Instr :=
  match field w 9 3 with
  | 0 => .mul (regOf w) (dstOf w)
  | 1 => .div (regOf w) (dstOf w)
  | 2 => .ash (regOf w) (dstOf w)
  | 3 => .ashc (regOf w) (dstOf w)
  | 4 => .xor (regOf w) (dstOf w)
  | 5 => .reserved w
  | 6 => decodeCis w
  | _ => .sob (regOf w) (sixOf w)

/-- Words 170000 to 170077, the floating no-operand group (R211 (c), R218 (c)). -/
def decodeFpNoOperand (w : Word) : Instr :=
  match field w 0 6 with
  | 0 => .cfcc
  | 1 => .setf
  | 2 => .seti
  | 9 => .setd
  | 10 => .setl
  | _ => .fpIllegal w

/-- Words 170000 to 170777, the floating single-operand group (R211 (b)). -/
def decodeFpSingle (w : Word) : Instr :=
  match field w 6 3 with
  | 0 => decodeFpNoOperand w
  | 1 => .ldfps (dstOf w)
  | 2 => .stfps (dstOf w)
  | 3 => .stst (dstOf w)
  | 4 => .clrf (dstOf w)
  | 5 => .tstf (dstOf w)
  | 6 => .absf (dstOf w)
  | _ => .negf (dstOf w)

/-- Words 170000 to 177777, floating point (R229). -/
def decode17 (w : Word) : Instr :=
  match field w 8 4 with
  | 0 | 1 => decodeFpSingle w
  | 2 => .mulf (acOf w) (dstOf w)
  | 3 => .modf (acOf w) (dstOf w)
  | 4 => .addf (acOf w) (dstOf w)
  | 5 => .ldf (acOf w) (dstOf w)
  | 6 => .subf (acOf w) (dstOf w)
  | 7 => .cmpf (acOf w) (dstOf w)
  | 8 => .stf (acOf w) (dstOf w)
  | 9 => .divf (acOf w) (dstOf w)
  | 10 => .stexp (acOf w) (dstOf w)
  | 11 => .stcfi (acOf w) (dstOf w)
  | 12 => .stcfd (acOf w) (dstOf w)
  | 13 => .ldexp (acOf w) (dstOf w)
  | 14 => .ldcif (acOf w) (dstOf w)
  | _ => .ldcdf (acOf w) (dstOf w)

/-- The instruction of an op-code word: the unique row of the table that matches it (R221, R232). -/
def decodeWord (w : Word) : Instr :=
  match field w 12 4 with
  | 0 => decode00 w
  | 1 => .mov (srcOf w) (dstOf w)
  | 2 => .cmp (srcOf w) (dstOf w)
  | 3 => .bit (srcOf w) (dstOf w)
  | 4 => .bic (srcOf w) (dstOf w)
  | 5 => .bis (srcOf w) (dstOf w)
  | 6 => .add (srcOf w) (dstOf w)
  | 7 => decode07 w
  | 8 => decode10 w
  | 9 => .movb (srcOf w) (dstOf w)
  | 10 => .cmpb (srcOf w) (dstOf w)
  | 11 => .bitb (srcOf w) (dstOf w)
  | 12 => .bicb (srcOf w) (dstOf w)
  | 13 => .bisb (srcOf w) (dstOf w)
  | 14 => .sub (srcOf w) (dstOf w)
  | _ => decode17 w

/-- Why the decoder refuses a byte string: fewer than the two bytes of an op-code word. -/
inductive DecodeError where
  | truncated
  deriving DecidableEq, Repr

/-- Decode the instruction at the head of a byte string, the low byte of its word first (R102), and return what follows. -/
def decode : List Byte → Except DecodeError (Instr × List Byte)
  | lo :: hi :: rest => .ok (decodeWord (hi ++ lo), rest)
  | _ => .error .truncated

/-- The instruction the decoder reads from an instruction whose bits are `w`, numbered as spec/opcode_table.json numbers
them: every instruction of this hardware is told by its first 16 bits. -/
def decodeTableWord (_nbits w : Nat) : Option Instr :=
  match decode [BitVec.ofNat 8 w, BitVec.ofNat 8 (w / 256)] with
  | .ok (i, _) => some i
  | .error _ => none

/-- Bits 15 to 6 of the single-operand format, then the operand field (R202). -/
def withOperand (op : BitVec 10) (o : Operand) : Word := op ++ o.bits

/-- Bits 15 to 12, source field, destination field (R203). -/
def withTwoOperands (op : BitVec 4) (src dst : Operand) : Word := op ++ (src.bits ++ dst.bits)

/-- Bits 15 to 9, register, operand field (R204). -/
def withRegOperand (op : BitVec 7) (r : Reg) (o : Operand) : Word := op ++ (r.bits ++ o.bits)

/-- Bits 15 to 8, low byte (R205, R208). -/
def withLowByte (op : BitVec 8) (b : Byte) : Word := op ++ b

/-- Bits 15 to 8, accumulator, operand field (R211 (a)). -/
def withAcOperand (op : BitVec 8) (ac : Ac) (o : Operand) : Word := op ++ (ac.bits ++ o.bits)

/-- The op-code word of an instruction. -/
def encodeWord : Instr → Word
  | .halt => 0o000000
  | .wait => 0o000001
  | .rti => 0o000002
  | .bpt => 0o000003
  | .iot => 0o000004
  | .reset => 0o000005
  | .rtt => 0o000006
  | .mfpt => 0o000007
  | .jmp o => withOperand 0o1 o
  | .rts r => (0o00020 : BitVec 13) ++ r.bits
  | .nop => 0o000240
  | .clc => 0o000241
  | .clv => 0o000242
  | .clz => 0o000244
  | .cln => 0o000250
  | .ccc => 0o000257
  | .clearCodes mask => (0o12 : BitVec 12) ++ mask
  | .sec => 0o000261
  | .sev => 0o000262
  | .sez => 0o000264
  | .sen => 0o000270
  | .scc => 0o000277
  | .setCodes mask => (0o13 : BitVec 12) ++ mask
  | .swab o => withOperand 0o3 o
  | .br b => withLowByte 0o1 b
  | .bne b => withLowByte 0o2 b
  | .beq b => withLowByte 0o3 b
  | .bge b => withLowByte 0o4 b
  | .blt b => withLowByte 0o5 b
  | .bgt b => withLowByte 0o6 b
  | .ble b => withLowByte 0o7 b
  | .bpl b => withLowByte 0o200 b
  | .bmi b => withLowByte 0o201 b
  | .bhi b => withLowByte 0o202 b
  | .blos b => withLowByte 0o203 b
  | .bvc b => withLowByte 0o204 b
  | .bvs b => withLowByte 0o205 b
  | .bcc b => withLowByte 0o206 b
  | .bcs b => withLowByte 0o207 b
  | .jsr r o => withRegOperand 0o4 r o
  | .clr o => withOperand 0o50 o
  | .clrb o => withOperand 0o1050 o
  | .com o => withOperand 0o51 o
  | .comb o => withOperand 0o1051 o
  | .inc o => withOperand 0o52 o
  | .incb o => withOperand 0o1052 o
  | .dec o => withOperand 0o53 o
  | .decb o => withOperand 0o1053 o
  | .neg o => withOperand 0o54 o
  | .negb o => withOperand 0o1054 o
  | .adc o => withOperand 0o55 o
  | .adcb o => withOperand 0o1055 o
  | .sbc o => withOperand 0o56 o
  | .sbcb o => withOperand 0o1056 o
  | .tst o => withOperand 0o57 o
  | .tstb o => withOperand 0o1057 o
  | .ror o => withOperand 0o60 o
  | .rorb o => withOperand 0o1060 o
  | .rol o => withOperand 0o61 o
  | .rolb o => withOperand 0o1061 o
  | .asr o => withOperand 0o62 o
  | .asrb o => withOperand 0o1062 o
  | .asl o => withOperand 0o63 o
  | .aslb o => withOperand 0o1063 o
  | .mark nn => (0o64 : BitVec 10) ++ nn
  | .mfpi o => withOperand 0o65 o
  | .mtpi o => withOperand 0o66 o
  | .sxt o => withOperand 0o67 o
  | .mov src dst => withTwoOperands 0o1 src dst
  | .movb src dst => withTwoOperands 0o11 src dst
  | .cmp src dst => withTwoOperands 0o2 src dst
  | .cmpb src dst => withTwoOperands 0o12 src dst
  | .bit src dst => withTwoOperands 0o3 src dst
  | .bitb src dst => withTwoOperands 0o13 src dst
  | .bic src dst => withTwoOperands 0o4 src dst
  | .bicb src dst => withTwoOperands 0o14 src dst
  | .bis src dst => withTwoOperands 0o5 src dst
  | .bisb src dst => withTwoOperands 0o15 src dst
  | .add src dst => withTwoOperands 0o6 src dst
  | .sub src dst => withTwoOperands 0o16 src dst
  | .mul r o => withRegOperand 0o70 r o
  | .div r o => withRegOperand 0o71 r o
  | .ash r o => withRegOperand 0o72 r o
  | .ashc r o => withRegOperand 0o73 r o
  | .xor r o => withRegOperand 0o74 r o
  | .sob r nn => (0o77 : BitVec 7) ++ (r.bits ++ nn)
  | .emt b => withLowByte 0o210 b
  | .trap b => withLowByte 0o211 b
  | .mtps o => withOperand 0o1064 o
  | .mfpd o => withOperand 0o1065 o
  | .mtpd o => withOperand 0o1066 o
  | .mfps o => withOperand 0o1067 o
  | .cfcc => 0o170000
  | .setf => 0o170001
  | .seti => 0o170002
  | .setd => 0o170011
  | .setl => 0o170012
  | .ldfps o => withOperand 0o1701 o
  | .stfps o => withOperand 0o1702 o
  | .stst o => withOperand 0o1703 o
  | .clrf o => withOperand 0o1704 o
  | .tstf o => withOperand 0o1705 o
  | .absf o => withOperand 0o1706 o
  | .negf o => withOperand 0o1707 o
  | .mulf ac o => withAcOperand 0o362 ac o
  | .modf ac o => withAcOperand 0o363 ac o
  | .addf ac o => withAcOperand 0o364 ac o
  | .ldf ac o => withAcOperand 0o365 ac o
  | .subf ac o => withAcOperand 0o366 ac o
  | .cmpf ac o => withAcOperand 0o367 ac o
  | .stf ac o => withAcOperand 0o370 ac o
  | .divf ac o => withAcOperand 0o371 ac o
  | .stexp ac o => withAcOperand 0o372 ac o
  | .stcfi ac o => withAcOperand 0o373 ac o
  | .stcfd ac o => withAcOperand 0o374 ac o
  | .ldexp ac o => withAcOperand 0o375 ac o
  | .ldcif ac o => withAcOperand 0o376 ac o
  | .ldcdf ac o => withAcOperand 0o377 ac o
  | .l2d r => (0o07602 : BitVec 13) ++ r.bits
  | .l3d r => (0o07606 : BitVec 13) ++ r.bits
  | .movc => 0o076030
  | .movci => 0o076130
  | .movrc => 0o076031
  | .movrci => 0o076131
  | .movtc => 0o076032
  | .movtci => 0o076132
  | .locc => 0o076040
  | .locci => 0o076140
  | .skpc => 0o076041
  | .skpci => 0o076141
  | .scanc => 0o076042
  | .scanci => 0o076142
  | .spanc => 0o076043
  | .spanci => 0o076143
  | .cmpc => 0o076044
  | .cmpci => 0o076144
  | .matc => 0o076045
  | .matci => 0o076145
  | .addn => 0o076050
  | .addni => 0o076150
  | .subn => 0o076051
  | .subni => 0o076151
  | .cmpn => 0o076052
  | .cmpni => 0o076152
  | .cvtnl => 0o076053
  | .cvtnli => 0o076153
  | .cvtpn => 0o076054
  | .cvtpni => 0o076154
  | .cvtnp => 0o076055
  | .cvtnpi => 0o076155
  | .ashn => 0o076056
  | .ashni => 0o076156
  | .cvtln => 0o076057
  | .cvtlni => 0o076157
  | .addp => 0o076070
  | .addpi => 0o076170
  | .subp => 0o076071
  | .subpi => 0o076171
  | .cmpp => 0o076072
  | .cmppi => 0o076172
  | .cvtpl => 0o076073
  | .cvtpli => 0o076173
  | .mulp => 0o076074
  | .mulpi => 0o076174
  | .divp => 0o076075
  | .divpi => 0o076175
  | .ashp => 0o076076
  | .ashpi => 0o076176
  | .cvtlp => 0o076077
  | .cvtlpi => 0o076177
  | .reserved w => w
  | .fpIllegal w => w

/-- The words of an instruction: one op-code word; extension words are operands in memory, no part of the term. -/
def encode (i : Instr) : List Word := [encodeWord i]

/-- The bytes of an instruction as memory holds them, the low byte first (R102). -/
def encodeBytes (i : Instr) : List Byte :=
  [(encodeWord i).extractLsb' 0 8, (encodeWord i).extractLsb' 8 8]

end Sys2Proof
end

