-- ==== Sys2Proof/Config.lean ====
section
/-! DEFINITION. What the platform fixes (spec/00_scope.md R7 to R12) and the values the spec leaves open.

`Config` is data: `State` carries one, no step changes it, and a statement over all states therefore holds for every
setting of the jumpers (log 3). The constants below `Config.factory` have no body: nothing can be proved of their
values (log 51). -/

namespace Sys2Proof

/-- How many physical address lines the backplane and the memories decode: `PA_BITS` of R7. -/
inductive BusWidth where
  | bits18
  | bits22
  deriving DecidableEq, Repr

/-- The power-up mode selected by jumpers J17 to J19: `POWER_UP_MODE` of R9. -/
inductive PowerUpMode where
  | mode0
  | mode1
  | mode2
  | mode3
  deriving DecidableEq, Repr

/-- The platform parameters of the module (R7 to R12, and `UART1_NO_INIT` of spec/92_eei_decisions.md). -/
structure Config where
  /-- `PA_BITS` (R7, spec/20_memory.md R114). -/
  busWidth : BusWidth
  /-- `FP_PRESENT`: KEF11-AA is installed (R8). -/
  fpPresent : Bool
  /-- `CIS_PRESENT`: KEF11-BB is installed (R8). -/
  cisPresent : Bool
  /-- `POWER_UP_MODE` (R9, spec/70_reset_and_hazards.md R803). -/
  powerUpMode : PowerUpMode
  /-- `HALT_TRAP`: a kernel-mode HALT traps to 10 (R10). -/
  haltTrap : Bool
  /-- `BDK_DISABLE`: no boot and diagnostic registers, ROM window and LKS (R11). -/
  bdkDisable : Bool
  /-- `LTC_FORCE`: the line clock interrupt enable is held set (R11). -/
  ltcForce : Bool
  /-- `DL1_DISABLE`: no console serial-line registers (R11). -/
  dl1Disable : Bool
  /-- `DL2_DISABLE`: no second serial-line registers (R11). -/
  dl2Disable : Bool
  /-- `DL2_ALT`: the second unit at 17776540 with vectors 340 and 344 (R11). -/
  dl2Alt : Bool
  /-- `BREAK_HALT`: a break on the console line halts the processor (R11). -/
  breakHalt : Bool
  /-- `UART1_NO_INIT`: the console UART is not cleared by BINIT (spec/93_implementation_defined.md I33). -/
  uart1NoInit : Bool
  /-- `S1`, the eight switches of the configuration register (R12). -/
  s1 : Byte
  /-- The physical byte ranges `[lo, hi)` where a memory module answers (R12, spec/20_memory.md R112). -/
  ram : List (Nat × Nat)
  /-- `ROM`, the boot and diagnostic ROM image by byte address 0 to 37777 octal (R12, R775). -/
  rom : List Host.Cell
  /-- Even addresses whose memory words answer every read with a parity error (spec/20_memory.md R141); a write to one does
  not clear it, which R141 leaves to the memory (DESIGN CHOICE, log 52). -/
  parityBad : List Nat
  /-- Memory keeps its content while power is off (spec/70_reset_and_hazards.md R810). -/
  nonvolatile : Bool
  deriving DecidableEq, Repr

/-- The factory settings (R9 to R12) with both options installed, 22 address lines and all of memory populated
(DESIGN CHOICE for what R7, R8 and R12 leave to the platform, log 3, log 5). -/
def Config.factory : Config where
  busWidth := .bits22
  fpPresent := true
  cisPresent := true
  powerUpMode := .mode2
  haltTrap := false
  bdkDisable := false
  ltcForce := false
  dl1Disable := false
  dl2Disable := false
  dl2Alt := false
  breakHalt := false
  uart1NoInit := false
  s1 := 0o113
  ram := [(0, 0o17760000)]
  rom := []
  parityBad := []
  nonvolatile := false

/-- How an unpredictable effect may manifest itself as a trap: "it must meet all the requirements for the particular
trap" (spec/48_cis_character.md R581). -/
inductive UnpredictableTrap where
  /-- By a reference that fails: the reference is made, and traps as it would for any instruction. -/
  | reference (va : Word) (write : Bool)
  /-- By one of the instruction traps of spec/60_exceptions.md R702: 4, 10, 14, 20, 30 or 34. -/
  | vector (index : Fin 6)
  /-- By a floating-point exception through 244, where it can be met: codes 2, 4, 6, 8, 10, 12 in order. -/
  | floating (index : Fin 6)
  /-- By the kernel stack pointer pushed below 400, to this value: the stack overflow trap of spec/60_exceptions.md R715,
  which the next service state takes. -/
  | stackOverflow (sp : Word)
  deriving DecidableEq, Repr

/-- What one CIS instruction whose effect is unpredictable leaves behind: any value in exactly the state that
spec/48_cis_character.md R581 (b) lists, then possibly a trap (spec/93_implementation_defined.md I31). -/
structure Unpredictable where
  r0 : Word
  r1 : Word
  r2 : Word
  r3 : Word
  r4 : Word
  r5 : Word
  sp : Word
  pc : Word
  /-- N, Z, V and C. -/
  codes : BitVec 4
  /-- PS<8>. -/
  si : Bool
  /-- Bytes stored, by virtual address of the current mode. -/
  stores : List (Word × Byte)
  /-- The trap it manifests itself as, if any. -/
  trap : Option UnpredictableTrap
  deriving DecidableEq, Repr, Inhabited

/-- Any word: a register after power was lost (I28), a read of the PCR (D8). -/
opaque Config.freeWord : Nat → Word

/-- Any byte. -/
opaque Config.freeByte : Nat → Byte

/-- Any four condition codes (I30). -/
opaque Config.freeCodes : Nat → BitVec 4

/-- Any accumulator (I28, I27). -/
opaque Config.freeQuad : Nat → Quad

/-- What a read of R6 gives in mode 10, where `SPm[2]` holds the second argument (D1, log 6). -/
opaque Config.modeTwoSp : Nat → Word → Word

/-- What the ROM window shows at a ROM byte address the image does not list (I24, log 48). -/
opaque Config.romByte : Nat → Byte

/-- How many steps the transmitter takes beyond the first to be ready again (I38, log 39). -/
opaque Config.txDelay : Nat → Nat

/-- The contents of memory when dc power returns to volatile memory (I22, I28). -/
opaque Config.powerUpMemory : Nat → List (Nat × Byte)

/-- The outcome of a CIS instruction whose effect is unpredictable (I31, log 34). -/
opaque Config.unpredictable : Nat → Unpredictable

end Sys2Proof
end

