-- ==== Sys2Proof/Machine/State.lean ====
section
/-! DEFINITION. The state of the machine: everything spec/10_state.md gives it, as plain data, and the state after reset.

INVENTORY.md lists every field with its rule and its reset value. -/

namespace Sys2Proof.Machine

/-- A processor mode as PS<15:14> and PS<13:12> encode it (R38). -/
inductive Mode where
  /-- 00. -/
  | kernel
  /-- 01, "reserved for future DIGITAL use". -/
  | reserved
  /-- 10, "illegal". -/
  | illegal
  /-- 11. -/
  | user
  deriving DecidableEq, Repr

/-- The two sets of page registers (R42, R43). -/
inductive PageSet where
  | kernel
  | user
  deriving DecidableEq, Repr

/-- The general registers (R20, R23, R27): R0 to R5, the four cells R6 can name, and the PC. -/
structure Regs where
  r0 : Word
  r1 : Word
  r2 : Word
  r3 : Word
  r4 : Word
  r5 : Word
  /-- `SPm[0]`, the kernel stack pointer. -/
  ksp : Word
  /-- `SPm[1]`, the reserved stack pointer. -/
  ssp : Word
  /-- `SPm[2]`, mode 10: a read gives any value (D1, log 6). -/
  xsp : Word
  /-- `SPm[3]`, the user stack pointer. -/
  usp : Word
  pc : Word
  deriving DecidableEq, Repr

/-- The memory management registers (R42 to R54). SR1 always reads zero and has no storage (R51). -/
structure Mmu where
  kpar : Vector Word 8
  kpdr : Vector Word 8
  upar : Vector Word 8
  updr : Vector Word 8
  sr0 : Word
  sr2 : Word
  sr3 : Word
  deriving DecidableEq, Repr

/-- The floating-point registers (R55 to R57). -/
structure Fpp where
  ac : Vector Quad 6
  fps : Word
  fec : BitVec 4
  fea : Word
  deriving DecidableEq, Repr

/-- One serial-line unit (R63 to R67, R73). -/
structure Slu where
  /-- RBUF<7:0>, the last received character. -/
  rbuf : Byte
  /-- RBUF<14>, overrun. -/
  ovr : Bool
  /-- RBUF<13>, framing error. -/
  frm : Bool
  /-- RBUF<12>, parity error. -/
  par : Bool
  /-- RCSR<7>. -/
  rxDone : Bool
  /-- RCSR<6>. -/
  rxIE : Bool
  /-- The receiver interrupt channel holds a request (spec/60_exceptions.md R750). -/
  rxReq : Bool
  /-- The transmitter holding buffer. -/
  tbuf : Byte
  /-- TCSR<7>. -/
  txRdy : Bool
  /-- TCSR<6>. -/
  txIE : Bool
  /-- The transmitter interrupt channel holds a request. -/
  txReq : Bool
  /-- TCSR<0> as stored; it reads zero (R66). -/
  txBrk : Bool
  /-- The model's own: steps until the holding buffer is on the line; meaningful while `txRdy` is false (log 39). -/
  txTimer : Nat
  /-- The model's own: the characters sent, oldest first (R754). -/
  sent : List Byte
  deriving DecidableEq, Repr

/-- Which serial-line unit. -/
inductive Unit2 where
  | console
  | second
  deriving DecidableEq, Repr

/-- The registers of the board other than the serial-line units (R58 to R62, R72). -/
structure Board where
  pcr : Word
  rwr : Word
  /-- The display register: a 0 lights its LED (R61). -/
  display : BitVec 4
  /-- LKS<6>. -/
  lcie : Bool
  /-- The line clock request flip-flop. -/
  eventFlg : Bool
  deriving DecidableEq, Repr

/-- Physical memory below the I/O page: (address, byte) pairs, addresses strictly rising, no byte that an unlisted
address reads as (`Machine/Memory.lean` says which that is). -/
abbrev Memory := List Host.Cell

/-- How a trap sequence is to be performed (spec/60_exceptions.md R715, R720, R722). -/
inductive TrapKind where
  /-- R720. -/
  | ordinary
  /-- R720 for the stack overflow trap: its pushes do not set the stack overflow request again (R715, D50). -/
  | stackOverflow
  /-- R722: the emergency stack. -/
  | emergency
  deriving DecidableEq, Repr

/-- A trap sequence to perform. -/
structure TrapRequest where
  vector : Word
  kind : TrapKind
  deriving DecidableEq, Repr

/-- What waits for the service state (R69, R70). -/
structure Pending where
  /-- A trap sequence that must start (again) because a reference of the last one failed (R721, R722, log 37). -/
  trap : Option TrapRequest
  /-- T-bit trace (spec/60_exceptions.md R712). -/
  trace : Bool
  /-- Kernel stack overflow (R715). -/
  stkovf : Bool
  /-- Power fail (R711). -/
  pwrdwn : Bool
  /-- The next instruction is fetched without a service state before it (R723, R847). -/
  proceed : Bool
  deriving DecidableEq, Repr

/-- The run state (R74). -/
inductive RunState where
  | running
  /-- After WAIT (spec/45_misc_cc_mmu_ps.md R431). -/
  | waiting
  /-- In console ODT (spec/70_reset_and_hazards.md R830). -/
  | halted
  /-- Testing BPOK H, in the power-up sequence or in a HALT during power fail (R800, spec/45_misc_cc_mmu_ps.md R430). -/
  | awaitingBpok
  /-- BDCOK H negated (R810). -/
  | poweredDown
  deriving DecidableEq, Repr

/-- An interrupt request standing on the bus (spec/60_exceptions.md R740, R741). -/
structure BusRequest where
  /-- 4 to 7. -/
  level : Nat
  /-- The vector the device supplies, or none when it does not reply (R723). -/
  vector : Option (BitVec 9)
  deriving DecidableEq, Repr

/-- The lines from outside, at their present level. -/
structure Lines where
  /-- BHALT L asserted (R755). -/
  bhalt : Bool
  /-- The console line is in a break that requests a halt (`BREAK_HALT`, R755). -/
  breakHalt : Bool
  /-- BPOK H asserted (R711). -/
  bpok : Bool
  /-- Bus devices requesting an interrupt, the electrically closest first (R741). -/
  requests : List BusRequest
  deriving DecidableEq, Repr

/-- The ten input states of console ODT (spec/70_reset_and_hazards.md R834), in order. -/
inductive OdtState where
  | s1
  | s2
  | s3
  | s4
  | s5
  | s6
  | s7
  | s8
  | s9
  | s10
  deriving DecidableEq, Repr

/-- What ODT calls a location (R833). -/
inductive OdtLoc where
  /-- A bus address, 18 bits. -/
  | bus (a : BitVec 18)
  /-- A processor register by number. -/
  | reg (n : BitVec 3)
  | ps
  deriving DecidableEq, Repr

/-- The register designator typed last (R839). -/
inductive OdtDesig where
  | digit (d : BitVec 3)
  | ps
  deriving DecidableEq, Repr

/-- What the ODT microcode still has to do before it looks for input (log 45). -/
inductive OdtOp where
  /-- Print one character (R831). -/
  | put (c : Byte)
  /-- Read a location, print it and a space, and leave it open (R835). -/
  | openLoc (l : OdtLoc)
  /-- Store into a location (R837). -/
  | deposit (l : OdtLoc) (v : Word)
  /-- Read one byte and print it (R848). -/
  | dumpByte (a : Word)
  /-- The G command after its nulls (R846). -/
  | go
  /-- The P command after its echo (R847). -/
  | proceed
  deriving DecidableEq, Repr

/-- The hidden state of console ODT (R74, R832 to R848). -/
structure Odt where
  state : OdtState
  opened : Option OdtLoc
  last : Option OdtLoc
  num : BitVec 18
  haveNum : Bool
  desig : Option OdtDesig
  /-- The first byte of a dump address (R848). -/
  dumpHi : Option Byte
  todo : List OdtOp
  deriving DecidableEq, Repr

/-- The part of a word a write at an address drives: the whole word, or the byte that bit 0 selects
(spec/20_memory.md R106). -/
inductive Size where
  | byte
  | word
  deriving DecidableEq, Repr

/-- One bus cycle of a DMA master, at a physical address (spec/20_memory.md R150). -/
inductive DmaCycle where
  /-- A read of a word. -/
  | dati (pa : PAddr)
  /-- A write of a word, or of the byte of `v` on the lane of the address. -/
  | dato (pa : PAddr) (size : Size) (v : Word)
  /-- A read and then a write, with no other cycle between them. -/
  | datio (pa : PAddr) (size : Size) (v : Word)
  deriving DecidableEq, Repr

/-- The model's own: what else happens on the bus (log 19, log 42). -/
structure Bus where
  /-- What DMA masters do before each coming bus cycle of the processor, one list a cycle; nothing when it is used up. -/
  dma : List (List DmaCycle)
  /-- What the reads of the DMA masters have given, oldest first; none where nothing answered. -/
  seen : List (Option Word)
  /-- In a step that the loss of dc power cuts short, how many bus cycles the processor still completes; else none. -/
  left : Option Nat
  deriving DecidableEq, Repr

/-- What the outside world does at the start of one step (log 43). -/
inductive Input where
  /-- Nothing. -/
  | quiet
  /-- A character arrives on a unit, with its framing, parity and overrun status (R753); a framing error on the console
  line is a break where `BREAK_HALT` is set (R755). -/
  | receive (u : Unit2) (c : Byte) (frm par ovr : Bool)
  /-- The console line leaves the break condition, which ends its halt request (log 62). -/
  | breakEnd
  /-- The leading edge of BEVNT (R744). -/
  | clockEdge
  /-- BHALT L takes a level. -/
  | bhalt (asserted : Bool)
  /-- BPOK H takes a level (R711). -/
  | bpok (asserted : Bool)
  /-- BDCOK H is negated: dc power is lost. The step it cuts short has completed this many of its bus cycles (R810, D59,
  log 42). -/
  | powerDown (cycles : Nat)
  /-- DC power returns (R800). -/
  | powerUp
  /-- The interrupt requests on the bus become these (R740). -/
  | requests (rs : List BusRequest)
  /-- DMA masters take the bus between two steps, for any number of cycles (spec/20_memory.md R150). -/
  | dma (cycles : List DmaCycle)
  deriving DecidableEq, Repr

/-- The state of the machine. -/
structure State where
  /-- The platform's parameters: constant (log 3). -/
  cfg : Config
  regs : Regs
  /-- The processor status word (R31 to R41). -/
  ps : Word
  mmu : Mmu
  fpp : Fpp
  board : Board
  /-- The console serial-line unit. -/
  slu1 : Slu
  /-- The second serial-line unit. -/
  slu2 : Slu
  mem : Memory
  run : RunState
  pend : Pending
  odt : Odt
  lines : Lines
  bus : Bus
  /-- The model's own: what the outside world will do, one input a step (log 43). -/
  inputs : List Input
  /-- The model's own: the counter that picks the next free value (log 51). -/
  free : Nat
  deriving DecidableEq, Repr

/-- Why a step has no next state. -/
inductive Fault where
  /-- Raised by `step` alone: dc power is off and no input is left that could bring it back (R810, log 49). Safe: the
  machine does nothing more. -/
  | poweredDown
  deriving DecidableEq, Repr

/-- Why the model declines to give a meaning. -/
inductive Refusal where
  /-- Raised by an arm of `exec` whose instruction has no meaning yet; no arm is one. Safe: nothing is claimed. -/
  | notModelled (mnemonic : String)
  deriving DecidableEq, Repr

/-- A serial-line unit after power-up: TX RDY set, everything else clear (R68). -/
def Slu.reset : Slu where
  rbuf := 0
  ovr := false
  frm := false
  par := false
  rxDone := false
  rxIE := false
  rxReq := false
  tbuf := 0
  txRdy := true
  txIE := false
  txReq := false
  txBrk := false
  txTimer := 0
  sent := []

/-- The machine right after reset: the power-up sequence of R800 with the factory settings, whose power-up mode 2 has put
173000 in the PC and 000340 in the PS (R80, spec/70_reset_and_hazards.md R803). What R80 calls unspecified is zero
(DESIGN CHOICE, log 2). -/
def State.reset : State where
  cfg := Config.factory
  regs := { r0 := 0, r1 := 0, r2 := 0, r3 := 0, r4 := 0, r5 := 0, ksp := 0, ssp := 0, xsp := 0, usp := 0, pc := 0o173000 }
  ps := 0o000340
  mmu := { kpar := Vector.replicate 8 0, kpdr := Vector.replicate 8 0, upar := Vector.replicate 8 0,
           updr := Vector.replicate 8 0, sr0 := 0, sr2 := 0, sr3 := 0 }
  fpp := { ac := Vector.replicate 6 0, fps := 0, fec := 0, fea := 0 }
  board := { pcr := 0, rwr := 0, display := 0, lcie := false, eventFlg := false }
  slu1 := Slu.reset
  slu2 := Slu.reset
  mem := []
  run := .running
  pend := { trap := none, trace := false, stkovf := false, pwrdwn := false, proceed := false }
  odt := { state := .s1, opened := none, last := none, num := 0, haveNum := false, desig := none, dumpHi := none,
           todo := [] }
  lines := { bhalt := false, breakHalt := false, bpok := true, requests := [] }
  bus := { dma := [], seen := [], left := none }
  inputs := []
  free := 0

end Sys2Proof.Machine
end

