-- ==== Sys2Proof/Machine/Bits.lean ====
section
/-! DEFINITION. Bit fields, bytes of words, and the fields of the processor status word (spec/10_state.md R32). -/

namespace Sys2Proof.Machine

/-- Bits <7:0>. -/
def lowByte (w : Word) : Byte := w.extractLsb' 0 8

/-- Bits <15:8>. -/
def highByte (w : Word) : Byte := w.extractLsb' 8 8

/-- The word whose high byte is `hi` and whose low byte is `lo` (spec/20_memory.md R100). -/
def wordOf (hi lo : Byte) : Word := hi ++ lo

/-- `sext_8` of spec/00_scope.md R14. -/
def signExtendByte (b : Byte) : Word := b.signExtend 16

/-- `old` with the bits of `mask` taken from `new`. -/
def merge (mask new old : Word) : Word := (old &&& ~~~mask) ||| (new &&& mask)

/-- The even address of the word that holds a byte address: bit 0 ignored (spec/20_memory.md R108). -/
def evenAddr (a : Nat) : Nat := a / 2 * 2

/-- The mode a two-bit field encodes (R38). -/
def Mode.ofField (b : BitVec 2) : Mode :=
  if b = 0 then .kernel else if b = 1 then .reserved else if b = 2 then .illegal else .user

/-- The two-bit encoding of a mode (R38). -/
def Mode.bits : Mode → BitVec 2
  | .kernel => 0
  | .reserved => 1
  | .illegal => 2
  | .user => 3

/-- PS<15:14>, the current mode. -/
def psMode (ps : Word) : Mode := Mode.ofField (ps.extractLsb' 14 2)

/-- PS<13:12>, the previous mode. -/
def psPrevious (ps : Word) : Mode := Mode.ofField (ps.extractLsb' 12 2)

/-- PS<7:5>, the priority (R35). -/
def psPriority (ps : Word) : Nat := (ps.extractLsb' 5 3).toNat

/-- PS<8>, suspended instruction (R36). -/
def psSuspended (ps : Word) : Bool := ps.getLsbD 8

/-- PS<4>, the trace bit (R34). -/
def psTrace (ps : Word) : Bool := ps.getLsbD 4

/-- PS<3>. -/
def psN (ps : Word) : Bool := ps.getLsbD 3

/-- PS<2>. -/
def psZ (ps : Word) : Bool := ps.getLsbD 2

/-- PS<1>. -/
def psV (ps : Word) : Bool := ps.getLsbD 1

/-- PS<0>. -/
def psC (ps : Word) : Bool := ps.getLsbD 0

/-- The bits the PS implements: <11:9> read zero and ignore writes (R37, D3, log 7). -/
def psImplemented : Word := 0o170777

/-- The bits an explicit write of the PS reaches: all but T (R39, R40). -/
def psExplicit : Word := 0o170757

/-- The four condition codes (R33). -/
structure Codes where
  n : Bool
  z : Bool
  v : Bool
  c : Bool
  deriving DecidableEq, Repr

/-- The condition codes of a PS. -/
def psCodes (ps : Word) : Codes := { n := psN ps, z := psZ ps, v := psV ps, c := psC ps }

/-- The condition codes as the word PS<3:0>. -/
def Codes.toWord (k : Codes) : Word :=
  (0 : BitVec 12) ++ (BitVec.ofBool k.n ++ (BitVec.ofBool k.z ++ (BitVec.ofBool k.v ++ BitVec.ofBool k.c)))

/-- The PS with its condition codes replaced. -/
def psWithCodes (ps : Word) (k : Codes) : Word := merge 0o17 k.toWord ps

end Sys2Proof.Machine
end

