-- ==== Sys2Proof/Machine/Flags.lean ====
section
/-! DEFINITION. Every result and condition-code computation of the basic instruction set, for words and bytes alike
(spec/41_single_operand.md, spec/42_double_operand.md). -/

namespace Sys2Proof.Machine

variable {w : Nat}

/-- 1 or 0 of the carry. -/
def carryOf (c : Bool) : BitVec w := if c then 1 else 0

/-- N and Z by the result, V and C as given (R300). -/
def codesOf (r : BitVec w) (v c : Bool) : Codes := { n := r.msb, z := r == 0, v := v, c := c }

/-- A result with its condition codes. -/
abbrev AluResult (w : Nat) := BitVec w × Codes

/-- CLR, R280. -/
def aluClr : AluResult w := (0, { n := false, z := true, v := false, c := false })

/-- COM, R281. -/
def aluCom (d : BitVec w) : AluResult w := (~~~d, codesOf (~~~d) false true)

/-- INC, R282: V when the operand was the largest positive number; C stays. -/
def aluInc (k : Codes) (d : BitVec w) : AluResult w := (d + 1, codesOf (d + 1) (d == BitVec.intMax w) k.c)

/-- DEC, R283: V when the operand was the most negative number; C stays. -/
def aluDec (k : Codes) (d : BitVec w) : AluResult w := (d - 1, codesOf (d - 1) (d == BitVec.intMin w) k.c)

/-- NEG, R284. -/
def aluNeg (d : BitVec w) : AluResult w := (-d, codesOf (-d) (-d == BitVec.intMin w) (-d != 0))

/-- ADC, R285. -/
def aluAdc (k : Codes) (d : BitVec w) : AluResult w :=
  (d + carryOf k.c, codesOf (d + carryOf k.c) (d == BitVec.intMax w && k.c) (d == BitVec.allOnes w && k.c))

/-- SBC, R286: C is the borrow, by the spec's general knowledge (C19, PRESUMED, log 60). -/
def aluSbc (k : Codes) (d : BitVec w) : AluResult w :=
  (d - carryOf k.c, codesOf (d - carryOf k.c) (d == BitVec.intMin w && k.c) (d == 0 && k.c))

/-- TST, R287. -/
def aluTst (d : BitVec w) : Codes := codesOf d false false

/-- The codes of a shift or rotate: V is the exclusive or of the new N and the new C (R294). -/
def shiftCodes (r : BitVec w) (c : Bool) : Codes := codesOf r (r.msb ^^ c) c

/-- ROR, R290: the carry enters at the top. -/
def aluRor (k : Codes) (d : BitVec w) : AluResult w :=
  let r := (d >>> 1) ||| (carryOf k.c <<< (w - 1))
  (r, shiftCodes r (d.getLsbD 0))

/-- ROL, R291: the carry enters at the bottom. -/
def aluRol (k : Codes) (d : BitVec w) : AluResult w :=
  let r := (d <<< 1) ||| carryOf k.c
  (r, shiftCodes r d.msb)

/-- ASR, R292. -/
def aluAsr (d : BitVec w) : AluResult w :=
  let r := (d >>> 1) ||| (d &&& BitVec.intMin w)
  (r, shiftCodes r (d.getLsbD 0))

/-- ASL, R293. -/
def aluAsl (d : BitVec w) : AluResult w := (d <<< 1, shiftCodes (d <<< 1) d.msb)

/-- SWAB, R304: N and Z look at the low byte of the result. -/
def aluSwab (d : Word) : AluResult 16 :=
  let r := wordOf (lowByte d) (highByte d)
  (r, { n := (lowByte r).msb, z := lowByte r == 0, v := false, c := false })

/-- SXT, R305: all N; N and C stay. -/
def aluSxt (k : Codes) : AluResult 16 :=
  (if k.n then BitVec.allOnes 16 else 0, { n := k.n, z := !k.n, v := false, c := k.c })

/-- The codes of a move or logical result: V cleared, C stays (R331, R334). -/
def moveCodes (k : Codes) (r : BitVec w) : Codes := codesOf r false k.c

/-- CMP, R333: source minus destination; C is the borrow. -/
def aluCmp (s d : BitVec w) : Codes :=
  codesOf (s - d) (s.msb != d.msb && d.msb == (s - d).msb) (BitVec.ult s d)

/-- BIT, R334. -/
def aluBit (k : Codes) (s d : BitVec w) : Codes := moveCodes k (s &&& d)

/-- BIC, R335. -/
def aluBic (k : Codes) (s d : BitVec w) : AluResult w := (~~~s &&& d, moveCodes k (~~~s &&& d))

/-- BIS, R336. -/
def aluBis (k : Codes) (s d : BitVec w) : AluResult w := (s ||| d, moveCodes k (s ||| d))

/-- XOR, R345. -/
def aluXor (k : Codes) (s d : BitVec w) : AluResult w := (s ^^^ d, moveCodes k (s ^^^ d))

/-- ADD, R337. -/
def aluAdd (s d : BitVec w) : AluResult w :=
  (s + d, codesOf (s + d) (s.msb == d.msb && (s + d).msb != s.msb) (decide (2 ^ w ≤ s.toNat + d.toNat)))

/-- SUB, R338: destination minus source; C is the borrow. -/
def aluSub (s d : BitVec w) : AluResult w :=
  (d - s, codesOf (d - s) (s.msb != d.msb && s.msb == (d - s).msb) (BitVec.ult d s))

/-- MUL, R346: the 32-bit product; N and Z on all of it, C when it does not fit 16 bits. -/
def aluMul (r s : Word) : AluResult 32 :=
  let p := r.toInt * s.toInt
  (BitVec.ofInt 32 p, { n := decide (p < 0), z := decide (p = 0), v := false, c := decide (p < -0o100000 ∨ 0o100000 ≤ p) })

/-- DIV, R347: quotient truncated toward zero and remainder with the sign of the dividend; nothing when the divisor is 0
or the quotient does not fit. -/
def aluDiv (n : BitVec 32) (s : Word) : Option (Word × Word) × Codes :=
  if s = 0 then (none, { n := false, z := false, v := true, c := true })
  else
    let q := n.toInt.tdiv s.toInt
    if q < -0o100000 ∨ 0o77777 < q then (none, { n := false, z := false, v := true, c := false })
    else
      (some (BitVec.ofInt 16 q, BitVec.ofInt 16 (n.toInt.tmod s.toInt)),
        { n := decide (q < 0), z := decide (q = 0), v := false, c := false })

/-- Shift left one place at a time: the value, the last bit out, and whether the sign ever changed (R348). -/
def shiftLeft : Nat → BitVec w → Bool → Bool → BitVec w × Bool × Bool
  | 0, x, c, v => (x, c, v)
  | k + 1, x, _, v => shiftLeft k (x <<< 1) x.msb (v || ((x <<< 1).msb != x.msb))

/-- Arithmetic shift right one place at a time: the value and the last bit out (R348). -/
def shiftRight : Nat → BitVec w → Bool → BitVec w × Bool
  | 0, x, c => (x, c)
  | k + 1, x, _ => shiftRight k ((x >>> 1) ||| (x &&& BitVec.intMin w)) (x.getLsbD 0)

/-- ASH and ASHC, R348, R349: bits <5:0> of the source, signed; a count of 0 leaves V and C clear (D29). -/
def aluAsh (x : BitVec w) (s : Word) : AluResult w :=
  let k := ((s.extractLsb' 0 6).toInt : Int)
  if 0 ≤ k then
    let (r, c, v) := shiftLeft k.toNat x false false
    (r, codesOf r v c)
  else
    let (r, c) := shiftRight (-k).toNat x false
    (r, codesOf r false c)

end Sys2Proof.Machine
end

