-- ==== Sys2Proof/Machine/Memory.lean ====
section
/-! DEFINITION. Memory as data: a canonical list of (physical address, byte) pairs (spec/20_memory.md R100, R112). -/

namespace Sys2Proof.Machine

/-- What a byte of memory that nothing has written reads as: zero. DESIGN CHOICE, unsafe: memory contents at power-up
are the platform's (spec/00_scope.md R12, log 4). -/
def Memory.unlisted : Byte := 0

/-- The byte at a physical address. -/
def Memory.read : Memory → Nat → Byte
  | [], _ => Memory.unlisted
  | (k, b) :: rest, a => if k = a then b else Memory.read rest a

/-- The cell list that makes address `a` read `b` in front of `rest`. -/
def Memory.cons (a : Nat) (b : Byte) (rest : Memory) : Memory :=
  if b = Memory.unlisted then rest else (a, b) :: rest

/-- Write a byte; the result is canonical when the argument is. -/
def Memory.write : Memory → Nat → Byte → Memory
  | [], a, b => Memory.cons a b []
  | (k, v) :: rest, a, b =>
    if a < k then Memory.cons a b ((k, v) :: rest)
    else if a = k then Memory.cons a b rest
    else (k, v) :: Memory.write rest a b

/-- Addresses rise strictly from above `lo` and no listed byte is the unlisted one. -/
def Memory.wfFrom : Nat → Memory → Bool
  | _, [] => true
  | lo, (k, b) :: rest => decide (lo ≤ k) && (b != Memory.unlisted) && Memory.wfFrom (k + 1) rest

/-- The canonical form. -/
def Memory.wf (m : Memory) : Bool := Memory.wfFrom 0 m

/-- The word at an even address, low byte first (R100). -/
def Memory.readWord (m : Memory) (a : Nat) : Word :=
  wordOf (Memory.read m (a + 1)) (Memory.read m a)

/-- Which bytes of a word a bus write drives (R106). -/
inductive Lane where
  | word
  | low
  | high
  deriving DecidableEq, Repr

/-- The bits of the word a lane covers. -/
def Lane.mask : Lane → Word
  | .word => 0o177777
  | .low => 0o377
  | .high => 0o177400

/-- Write the bytes of `v` that the lane covers into the word at even address `a` (R106). -/
def Memory.writeLane (m : Memory) (a : Nat) (lane : Lane) (v : Word) : Memory :=
  match lane with
  | .word => Memory.write (Memory.write m a (lowByte v)) (a + 1) (highByte v)
  | .low => Memory.write m a (lowByte v)
  | .high => Memory.write m (a + 1) (highByte v)

/-- The memory with a list of bytes written, first to last. -/
def Memory.writeAll (m : Memory) : List (Nat × Byte) → Memory
  | [] => m
  | (a, b) :: rest => Memory.writeAll (Memory.write m a b) rest

/-- A memory module answers at this byte address (R112, R140). -/
def populated (cfg : Config) (a : Nat) : Bool :=
  cfg.ram.any fun range => decide (range.1 ≤ a) && decide (a < range.2)

/-- The byte address memory decodes from a physical address below the I/O page: with 18 lines the upper bits are ignored
(R114). -/
def memoryAddr (cfg : Config) (pa : PAddr) : Nat :=
  match cfg.busWidth with
  | .bits18 => pa.toNat % 0o1000000
  | .bits22 => pa.toNat

/-- The physical address asserts the I/O page select (R111). -/
def isIoPage (pa : PAddr) : Bool := decide (0o17760000 ≤ pa.toNat)

end Sys2Proof.Machine
end

