-- ==== Sys2Proof/Machine/Bus.lean ====
section
/-! DEFINITION. Bus cycles: memory, the registers of the I/O page, the serial-line units and the ROM window
(spec/20_memory.md sections 2, 3 and 5, spec/10_state.md sections 3, 4 and 6). -/

namespace Sys2Proof.Machine

/-- Why a memory reference failed (spec/60_exceptions.md R705, R706, R708). -/
inductive AbortKind where
  | mmu
  | timeout
  | parity
  deriving DecidableEq, Repr

/-- Why an instruction or a trap sequence ends before its last action. -/
inductive Stop where
  /-- A reference could not be completed (R700 (a)). -/
  | abort (k : AbortKind)
  /-- The instruction itself asks for the trap (R700 (b)). -/
  | trap (vector : Word)
  /-- A push of a trap sequence timed out (R722). -/
  | deadStack
  deriving DecidableEq, Repr

/-- A computation of the processor over the state: what it did before it stopped stays done (R710). -/
abbrev M := EStateM Stop State

/-- The next free value's number; every call gives another one (log 51). -/
def nextFree : M Nat := fun s => .ok s.free { s with free := s.free + 1 }

/-- The processor and board registers of the I/O page (spec/10_state.md R43, R49 to R53, R58). -/
inductive IoReg where
  | ps
  | sr0
  | sr1
  | sr2
  | sr3
  | par (set : PageSet) (n : Fin 8)
  | pdr (set : PageSet) (n : Fin 8)
  | pcr
  | rwr
  | cdr
  | lks
  /-- A word of the ROM window, by its offset A<8:0>. -/
  | rom (offset : Nat)
  | rcsr (u : Unit2)
  | rbuf (u : Unit2)
  | tcsr (u : Unit2)
  | tbuf (u : Unit2)
  deriving DecidableEq, Repr

/-- The four registers of a serial-line unit, two bytes apart (R58). -/
def sluReg (u : Unit2) (offset : Nat) : Option IoReg :=
  match offset with
  | 0 => some (.rcsr u)
  | 2 => some (.rbuf u)
  | 4 => some (.tcsr u)
  | 6 => some (.tbuf u)
  | _ => none

/-- The I/O page offset of the second serial-line unit (R58). -/
def slu2Base (cfg : Config) : Nat := if cfg.dl2Alt then 0o16540 else 0o16500

/-- The registers that are always there: the PS and those of the MMU chip (R31, R43, R49 to R53). -/
def chipReg (o : Nat) : Option IoReg :=
  if 0o12300 ≤ o ∧ o < 0o12320 then some (.pdr .kernel (Fin.ofNat 8 ((o - 0o12300) / 2)))
  else if 0o12340 ≤ o ∧ o < 0o12360 then some (.par .kernel (Fin.ofNat 8 ((o - 0o12340) / 2)))
  else if 0o17600 ≤ o ∧ o < 0o17620 then some (.pdr .user (Fin.ofNat 8 ((o - 0o17600) / 2)))
  else if 0o17640 ≤ o ∧ o < 0o17660 then some (.par .user (Fin.ofNat 8 ((o - 0o17640) / 2)))
  else if o = 0o12516 then some .sr3
  else if o = 0o17572 then some .sr0
  else if o = 0o17574 then some .sr1
  else if o = 0o17576 then some .sr2
  else if o = 0o17776 then some .ps
  else none

/-- The registers the board decodes, each group unless its jumper removes it (R11, R58). -/
def boardReg (cfg : Config) (o : Nat) : Option IoReg :=
  if 0o17560 ≤ o ∧ o < 0o17570 then
    if cfg.dl1Disable then none else sluReg .console (o - 0o17560)
  else if slu2Base cfg ≤ o ∧ o < slu2Base cfg + 0o10 then
    if cfg.dl2Disable then none else sluReg .second (o - slu2Base cfg)
  else if cfg.bdkDisable then none
  else if 0o13000 ≤ o ∧ o < 0o14000 then some (.rom (o - 0o13000))
  else if o = 0o17520 then some .pcr
  else if o = 0o17522 then some .rwr
  else if o = 0o17524 then some .cdr
  else if o = 0o17546 then some .lks
  else none

/-- The register at an I/O page address, if one answers there (spec/20_memory.md R112): bits <12:1> are decoded (R111).
No bus device has registers in this model (spec/00_scope.md R5 (d), log 46). -/
def ioDecode (cfg : Config) (pa : PAddr) : Option IoReg :=
  let o := evenAddr (pa.toNat % 0o20000)
  match chipReg o with
  | some r => some r
  | none => boardReg cfg o

/-- Something replies to a bus cycle at this address (R140). -/
def busAnswers (cfg : Config) (pa : PAddr) : Bool :=
  if isIoPage pa then (ioDecode cfg pa).isSome else populated cfg (evenAddr (memoryAddr cfg pa))

/-- The lane of a write of a size at a physical address (R106). -/
def laneOf (size : Size) (pa : PAddr) : Lane :=
  match size with
  | .word => .word
  | .byte => if pa.getLsbD 0 then .high else .low

/-- A DMA master reaches memory below the I/O page where a module answers, and nothing else (R113, D17, log 21). -/
def dmaReaches (cfg : Config) (pa : PAddr) : Bool :=
  !isIoPage pa && populated cfg (evenAddr (memoryAddr cfg pa))

/-- The word a DMA master reads; none where nothing answers. -/
def dmaRead (cfg : Config) (pa : PAddr) (m : Memory) : Option Word :=
  if dmaReaches cfg pa then some (m.readWord (evenAddr (memoryAddr cfg pa))) else none

/-- Memory after a DMA master's write. -/
def dmaWrite (cfg : Config) (pa : PAddr) (size : Size) (v : Word) (m : Memory) : Memory :=
  if dmaReaches cfg pa then m.writeLane (evenAddr (memoryAddr cfg pa)) (laneOf size pa) v else m

/-- One cycle of a DMA master on memory and the record of what has been read (R150, R151). -/
def dmaCycle (cfg : Config) (x : Memory × List (Option Word)) : DmaCycle → Memory × List (Option Word)
  | .dati pa => (x.1, x.2 ++ [dmaRead cfg pa x.1])
  | .dato pa size v => (dmaWrite cfg pa size v x.1, x.2)
  | .datio pa size v => (dmaWrite cfg pa size v x.1, x.2 ++ [dmaRead cfg pa x.1])

/-- The state after cycles of DMA masters: memory and the record change, nothing of the processor (R150). -/
def State.afterDma (cycles : List DmaCycle) (s : State) : State :=
  let x := cycles.foldl (dmaCycle s.cfg) (s.mem, s.bus.seen)
  { s with mem := x.1, bus := { s.bus with seen := x.2 } }

/-- The state in which the processor begins a bus cycle: the DMA masters have had the bus before it (R109, R150). -/
def State.granted (s : State) : State :=
  let t := s.afterDma (s.bus.dma.headD [])
  { t with bus := { t.bus with dma := s.bus.dma.tail, left := s.bus.left.map (· - 1) } }

/-- The processor takes the bus for one cycle, a DATIO being one (R109). In a step that the loss of dc power cuts short no
cycle follows the last one completed (spec/70_reset_and_hazards.md R810, log 42). -/
def busGrant : M Unit := fun s =>
  if s.bus.left = some 0 then .error (.abort .timeout) s else .ok ⟨⟩ s.granted

/-- A serial-line unit of the state. -/
def State.slu (s : State) : Unit2 → Slu
  | .console => s.slu1
  | .second => s.slu2

/-- The state with a serial-line unit replaced. -/
def State.withSlu (s : State) (u : Unit2) (x : Slu) : State :=
  match u with
  | .console => { s with slu1 := x }
  | .second => { s with slu2 := x }

/-- A request channel after its pair of enable and flag changes: set on the transition to both set, withdrawn when either
is clear (spec/60_exceptions.md R750). -/
def channel (was now held : Bool) : Bool := now && (held || !was)

/-- A unit after a change of its bits, its two request channels settled (R750). -/
def Slu.settle (old new : Slu) : Slu :=
  { new with
    rxReq := channel (old.rxDone && old.rxIE) (new.rxDone && new.rxIE) old.rxReq
    txReq := channel (old.txRdy && old.txIE) (new.txRdy && new.txIE) old.txReq }

/-- RCSR as read (R63). -/
def Slu.rcsr (x : Slu) : Word :=
  (0 : BitVec 8) ++ (BitVec.ofBool x.rxDone ++ (BitVec.ofBool x.rxIE ++ (0 : BitVec 6)))

/-- RBUF as read: ERR is the or of the three error bits (R64). -/
def Slu.rbufWord (x : Slu) : Word :=
  BitVec.ofBool (x.ovr || x.frm || x.par) ++
    (BitVec.ofBool x.ovr ++ (BitVec.ofBool x.frm ++ (BitVec.ofBool x.par ++ ((0 : BitVec 4) ++ x.rbuf))))

/-- TCSR as read: TX BRK reads zero (R65, R66). -/
def Slu.tcsr (x : Slu) : Word :=
  (0 : BitVec 8) ++ (BitVec.ofBool x.txRdy ++ (BitVec.ofBool x.txIE ++ (0 : BitVec 6)))

/-- Reading RBUF clears RX DONE and nothing else (R63, R64). -/
def Slu.readRbuf (x : Slu) : Slu := x.settle { x with rxDone := false }

/-- Writing RCSR reaches RX IE (R63). -/
def Slu.writeRcsr (x : Slu) (v : Word) : Slu := x.settle { x with rxIE := v.getLsbD 6 }

/-- Writing TCSR reaches TX IE, and TX BRK of the second unit (R65). -/
def Slu.writeTcsr (x : Slu) (u : Unit2) (v : Word) : Slu :=
  x.settle { x with txIE := v.getLsbD 6, txBrk := u = .second && v.getLsbD 0 }

/-- Writing TBUF loads the character and clears TX RDY; a character still pending is replaced (R67,
spec/60_exceptions.md R754, D54, log 39). -/
def Slu.writeTbuf (x : Slu) (delay : Nat) (c : Byte) : Slu :=
  x.settle { x with tbuf := c, txRdy := false, txTimer := delay }

/-- LKS as read (R62). -/
def lksWord (s : State) : Word :=
  (0 : BitVec 9) ++ (BitVec.ofBool (s.board.lcie || s.cfg.ltcForce) ++ (0 : BitVec 6))

/-- The ROM byte address of a window offset (spec/60_exceptions.md R775). -/
def romAddr (pcr : Word) (offset : Nat) : Nat :=
  let page := if offset < 0o400 then (pcr.extractLsb' 0 6).toNat else (pcr.extractLsb' 8 6).toNat
  page * 0o400 + offset % 0o400

/-- A byte of the ROM image; an address the image does not list reads any value (I24, log 48). -/
def romByte (image : List Host.Cell) (a : Nat) : Byte :=
  match image.find? fun cell => cell.1 == a with
  | some cell => cell.2
  | none => Config.romByte a

/-- The word of the ROM window at an even offset (R775): the low byte at the even address. -/
def romWord (s : State) (offset : Nat) : Word :=
  let a := romAddr s.board.pcr offset
  wordOf (romByte s.cfg.rom (a + 1)) (romByte s.cfg.rom a)

/-- The page address register `n` of a set. -/
def Mmu.par (m : Mmu) : PageSet → Fin 8 → Word
  | .kernel, n => m.kpar[n]
  | .user, n => m.upar[n]

/-- The page descriptor register `n` of a set. -/
def Mmu.pdr (m : Mmu) : PageSet → Fin 8 → Word
  | .kernel, n => m.kpdr[n]
  | .user, n => m.updr[n]

/-- The MMU with a PAR replaced. -/
def Mmu.withPar (m : Mmu) (set : PageSet) (n : Fin 8) (w : Word) : Mmu :=
  match set with
  | .kernel => { m with kpar := m.kpar.set n w }
  | .user => { m with upar := m.upar.set n w }

/-- The MMU with a PDR replaced. -/
def Mmu.withPdr (m : Mmu) (set : PageSet) (n : Fin 8) (w : Word) : Mmu :=
  match set with
  | .kernel => { m with kpdr := m.kpdr.set n w }
  | .user => { m with updr := m.updr.set n w }

/-- The W bit of a PDR (R46). -/
def pdrW : Word := 0o100

/-- The bits of a PDR a program can write: PLF, ED, ACF (R45). -/
def pdrWritable : Word := 0o077416

/-- The bits of SR0 a program can write: the abort flags and the enable (R49, R50, D6). -/
def sr0Writable : Word := 0o160001

/-- The bits SR3 implements (R53). -/
def sr3Writable : Word := 0o60

/-- The bits of the PCR that can be loaded (R59). -/
def pcrWritable : Word := 0o37477

/-- A read cycle of a register (spec/20_memory.md R105: a side effect occurs on any read). -/
def readIo (r : IoReg) : M Word := do
  let s ← get
  match r with
  | .ps => return s.ps
  | .sr0 => return s.mmu.sr0
  | .sr1 => return 0
  | .sr2 => return s.mmu.sr2
  | .sr3 => return s.mmu.sr3
  | .par set n => return s.mmu.par set n
  | .pdr set n => return s.mmu.pdr set n
  | .pcr => return Config.freeWord (← nextFree)
  | .rwr => return s.board.rwr
  | .cdr => return s.cfg.s1.setWidth 16
  | .lks => return lksWord s
  | .rom offset => return romWord s offset
  | .rcsr u => return (s.slu u).rcsr
  | .rbuf u =>
    set (s.withSlu u (s.slu u).readRbuf)
    return (s.slu u).rbufWord
  | .tcsr u => return (s.slu u).tcsr
  | .tbuf _ => return 0

/-- The lane drives the low byte. -/
def Lane.hasLow (lane : Lane) : Bool := lane != .high

/-- A write cycle of a register: the bits of `v` that the lane covers and the register implements (R40, R44 to R53, R59 to
R67); read-only registers, RBUF and the ROM ignore it (spec/20_memory.md R144). -/
def writeIo (r : IoReg) (lane : Lane) (v : Word) : M Unit := do
  let s ← get
  match r with
  | .ps => set { s with ps := merge (lane.mask &&& psExplicit) v s.ps }
  | .sr0 => set { s with mmu := { s.mmu with sr0 := merge (lane.mask &&& sr0Writable) v s.mmu.sr0 } }
  | .sr1 => return
  | .sr2 => return
  | .sr3 => set { s with mmu := { s.mmu with sr3 := merge (lane.mask &&& sr3Writable) v s.mmu.sr3 } }
  | .par p n =>
    let m := s.mmu.withPar p n (merge lane.mask v (s.mmu.par p n))
    set { s with mmu := m.withPdr p n (m.pdr p n &&& ~~~pdrW) }
  | .pdr p n =>
    set { s with mmu := s.mmu.withPdr p n (merge (lane.mask &&& pdrWritable) v (s.mmu.pdr p n) &&& ~~~pdrW) }
  | .pcr => set { s with board := { s.board with pcr := merge (lane.mask &&& pcrWritable) v s.board.pcr } }
  | .rwr => set { s with board := { s.board with rwr := merge lane.mask v s.board.rwr } }
  | .cdr =>
    if lane.hasLow then set { s with board := { s.board with display := v.extractLsb' 0 4 } } else return
  | .lks =>
    if lane.hasLow then set { s with board := { s.board with lcie := v.getLsbD 6 } } else return
  | .rom _ => return
  | .rcsr u => if lane.hasLow then set (s.withSlu u ((s.slu u).writeRcsr v)) else return
  | .rbuf _ => return
  | .tcsr u => if lane.hasLow then set (s.withSlu u ((s.slu u).writeTcsr u v)) else return
  | .tbuf u =>
    if lane.hasLow then
      let n ← nextFree
      modify fun s => s.withSlu u ((s.slu u).writeTbuf (Config.txDelay n) (lowByte v))
    else return

/-- The cycle of a read: always the whole word, address bit 0 ignored (R103, R105, R108). Nothing there: timeout (R140); a
parity memory may answer with an error (R141). That a write to such a word does not clear its error is the model's choice
(DESIGN CHOICE, log 52). -/
def readCycle (pa : PAddr) : M Word := do
  let s ← get
  if isIoPage pa then
    match ioDecode s.cfg pa with
    | some r => readIo r
    | none => throw (.abort .timeout)
  else
    let a := evenAddr (memoryAddr s.cfg pa)
    if populated s.cfg a then
      if s.cfg.parityBad.contains a then throw (.abort .parity) else return s.mem.readWord a
    else throw (.abort .timeout)

/-- The register at a physical address is the PS. -/
def isPs (cfg : Config) (pa : PAddr) : Bool :=
  isIoPage pa && ioDecode cfg pa == some .ps

/-- The cycle of a write, of a word or a byte. -/
def writeCycle (pa : PAddr) (lane : Lane) (v : Word) : M Unit := do
  let s ← get
  if isIoPage pa then
    match ioDecode s.cfg pa with
    | some r => writeIo r lane v
    | none => throw (.abort .timeout)
  else
    let a := evenAddr (memoryAddr s.cfg pa)
    if populated s.cfg a then set { s with mem := s.mem.writeLane a lane v }
    else throw (.abort .timeout)

/-- A DATI. -/
def busRead (pa : PAddr) : M Word := do
  busGrant
  readCycle pa

/-- A DATO or DATOB. -/
def busWrite (pa : PAddr) (lane : Lane) (v : Word) : M Unit := do
  busGrant
  writeCycle pa lane v

/-- `bus_init()` of spec/70_reset_and_hazards.md R812 on one serial-line unit. With `UART1_NO_INIT` the console unit keeps
what is in the UART and loses its enables and requests (I33, log 47). -/
def Slu.busInit (x : Slu) (keepUart : Bool) : Slu :=
  if keepUart then { x with rxIE := false, rxReq := false, txIE := false, txReq := false, txBrk := false }
  else { x with
    ovr := false, frm := false, par := false, rxDone := false, rxIE := false, rxReq := false,
    txRdy := true, txIE := false, txReq := false, txBrk := false, txTimer := 0 }

/-- `bus_init()` of R812: what BINIT clears (R68, R80). -/
def busInit (s : State) : State :=
  { s with
    mmu := { s.mmu with sr0 := 0, sr3 := 0 }
    board := { pcr := 0, rwr := 0, display := 0, lcie := false, eventFlg := false }
    slu1 := s.slu1.busInit s.cfg.uart1NoInit
    slu2 := s.slu2.busInit false
    lines := { s.lines with requests := [] } }

end Sys2Proof.Machine
end

