-- ==== Sys2Proof/Machine/Mmu.lean ====
section
/-! DEFINITION. The memory management unit: from a program address to a bus address, and the references of a program
(spec/20_memory.md sections 3 to 5). -/

namespace Sys2Proof.Machine

/-- SR0<0>: every program reference is relocated (R49, R121). -/
def State.relocating (s : State) : Bool := s.mmu.sr0.getLsbD 0

/-- SR0<15:13>: the abort flags (R49). -/
def abortFlags : Word := 0o160000

/-- One of the abort flags is set, by an abort or by a program: SR0<6:5>, SR0<3:1> and SR2 are frozen (R49, R52, R128). -/
def State.frozen (s : State) : Bool := (s.mmu.sr0 &&& abortFlags) != 0

/-- The set of page registers a mode selects; modes 01 and 10 have none (R120, R124). -/
def pageSetOf : Mode → Option PageSet
  | .kernel => some .kernel
  | .user => some .user
  | .reserved => none
  | .illegal => none

/-- VA<15:13>, the active page field (R122). -/
def pageOf (va : Word) : Fin 8 := Fin.ofNat 8 (va.extractLsb' 13 3).toNat

/-- VA<12:6>, the block number in the page (R122). -/
def blockOf (va : Word) : BitVec 7 := va.extractLsb' 6 7

/-- VA<5:0>, the displacement in the block (R122). -/
def dibOf (va : Word) : BitVec 6 := va.extractLsb' 0 6

/-- With the MMU disabled, 160000 and above is the I/O page and the rest is itself (R110). -/
def unmapped (va : Word) : PAddr :=
  if va.toNat < 0o160000 then va.setWidth 22 else BitVec.ofNat 22 (0o17600000 + va.toNat)

/-- 18-bit mapping: 12 bits of the PAF, the sum truncated to 12 bits, the top 8K bytes of the 18-bit space the I/O page
(R132, D13, log 17). -/
def map18 (par va : Word) : PAddr :=
  let block : BitVec 12 := par.extractLsb' 0 12 + (blockOf va).setWidth 12
  let pa18 : BitVec 18 := block ++ dibOf va
  if pa18.toNat < 0o760000 then pa18.setWidth 22 else BitVec.ofNat 22 (0o17000000 + pa18.toNat)

/-- 22-bit mapping: the block number is truncated to 16 bits (R133, D13, log 17). -/
def map22 (par va : Word) : PAddr :=
  (par + (blockOf va).setWidth 16) ++ dibOf va

/-- The relocated address: SR3<4> chooses the mapping (R132, R133). -/
def relocate (m : Mmu) (set : PageSet) (va : Word) : PAddr :=
  if m.sr3.getLsbD 4 then map22 (m.par set (pageOf va)) va else map18 (m.par set (pageOf va)) va

/-- PDR<2:1>, the access control field (R48). -/
def acfOf (pdr : Word) : BitVec 2 := pdr.extractLsb' 1 2

/-- SR0<15>, nonresident: ACF 00 or 10 (R125). -/
def nonresident (pdr : Word) : Bool := acfOf pdr == 0 || acfOf pdr == 2

/-- SR0<14>, page length: above the PLF of an upward page, below that of a downward one (R126). -/
def outsideLength (pdr va : Word) : Bool :=
  let plf := (pdr.extractLsb' 8 7).toNat
  let bn := (blockOf va).toNat
  if pdr.getLsbD 3 then decide (bn < plf) else decide (plf < bn)

/-- SR0<13>, a write to a read-only page: ACF 01 (R125). -/
def readOnlyViolation (pdr : Word) (write : Bool) : Bool := acfOf pdr == 1 && write

/-- The abort flags one reference raises through a page register; several may be raised at once (R126). -/
def pageFlags (pdr va : Word) (write : Bool) : Word :=
  (if nonresident pdr then 0o100000 else 0) ||| (if outsideLength pdr va then 0o040000 else 0)
    ||| (if readOnlyViolation pdr write then 0o020000 else 0)

/-- SR0 after an abort: the flags are ORed in; mode and page are loaded unless a flag was already set (R127, D14). -/
def sr0AfterAbort (sr0 flags : Word) (mode : Mode) (va : Word) : Word :=
  if (sr0 &&& abortFlags) = 0 then
    merge 0o156 ((mode.bits.setWidth 16 <<< 5) ||| (va.extractLsb' 13 3).setWidth 16 <<< 1) sr0 ||| flags
  else sr0 ||| flags

/-- An MMU abort: the reference is not made (R127). -/
def abortMmu {α : Type} (flags : Word) (mode : Mode) (va : Word) : M α := do
  modify fun s => { s with mmu := { s.mmu with sr0 := sr0AfterAbort s.mmu.sr0 flags mode va } }
  throw (.abort .mmu)

/-- A checked reference: where it goes on the bus, and the page register it went through, if any. -/
structure Mapped where
  pa : PAddr
  page : Option (PageSet × Fin 8)
  deriving DecidableEq, Repr

/-- Check and relocate one reference of a program made in the space of `mode` (R121, R124 to R127, R142). -/
def translate (mode : Mode) (va : Word) (write : Bool) : M Mapped := do
  let s ← get
  if s.relocating then
    match pageSetOf mode with
    | none => abortMmu 0o100000 mode va
    | some p =>
      let flags := pageFlags (s.mmu.pdr p (pageOf va)) va write
      if flags = 0 then return { pa := relocate s.mmu p va, page := some (p, pageOf va) }
      else abortMmu flags mode va
  else return { pa := unmapped va, page := none }

/-- Set the W bit of the page register a completed write went through (R131). -/
def markWritten (page : Option (PageSet × Fin 8)) : M Unit :=
  match page with
  | none => return
  | some (p, n) => modify fun s => { s with mmu := s.mmu.withPdr p n (s.mmu.pdr p n ||| pdrW) }

/-- A byte on both halves of the data lines. -/
def onBothLanes (b : Byte) : Word := wordOf b b

/-- The write half of a cycle through a checked reference. The answer says whether the PS was the location written (R40,
D5, log 9). The W bit is set when the slave answers, so that a write of the page register itself leaves it clear (R46,
R131). -/
def writeBack (m : Mapped) (size : Size) (v : Word) : M Bool := do
  let s ← get
  if busAnswers s.cfg m.pa then
    markWritten m.page
    writeCycle m.pa (laneOf size m.pa) v
    return isPs s.cfg m.pa
  else throw (.abort .timeout)

/-- Write through a checked reference: a DATO or DATOB. -/
def storeMapped (m : Mapped) (size : Size) (v : Word) : M Bool := do
  busGrant
  writeBack m size v

/-- `MemReadM(m, addr, 2)` of R14. -/
def readWordIn (mode : Mode) (va : Word) : M Word := do
  busRead (← translate mode va false).pa

/-- The byte of a word that bit 0 of its address selects (R105). -/
def selectByte (pa : PAddr) (w : Word) : Byte := if pa.getLsbD 0 then highByte w else lowByte w

/-- `MemReadM(m, addr, 1)`: the whole word is read, the byte is picked (R105). -/
def readByteIn (mode : Mode) (va : Word) : M Byte := do
  let m ← translate mode va false
  return selectByte m.pa (← busRead m.pa)

/-- `MemWriteM(m, addr, 2, v)` of R14. -/
def writeWordIn (mode : Mode) (va : Word) (v : Word) : M Bool := do
  storeMapped (← translate mode va true) .word v

/-- `MemWriteM(m, addr, 1, v)` of R14. -/
def writeByteIn (mode : Mode) (va : Word) (b : Byte) : M Bool := do
  storeMapped (← translate mode va true) .byte (onBothLanes b)

/-- The current mode, PS<15:14> (R38). -/
def State.mode (s : State) : Mode := psMode s.ps

/-- `MemRead(addr, 2)`. -/
def readWord (va : Word) : M Word := do readWordIn (← get).mode va

/-- `MemRead(addr, 1)`. -/
def readByte (va : Word) : M Byte := do readByteIn (← get).mode va

/-- `MemWrite(addr, 2, v)`. -/
def writeWord (va : Word) (v : Word) : M Bool := do writeWordIn (← get).mode va v

/-- `MemWrite(addr, 1, v)`. -/
def writeByte (va : Word) (b : Byte) : M Bool := do writeByteIn (← get).mode va b

end Sys2Proof.Machine
end

