-- ==== Sys2Proof/Machine/Ops.lean ====
section
/-! DEFINITION. The named operations every meaning is made of: registers, the PS, the stack, the fetch of instruction
words, taking an exception, returning from one, and running an instruction to its end. -/

namespace Sys2Proof.Machine

/-- The cell of R6 that a mode selects, as a read gives it (spec/10_state.md R23): in mode 10 a read gives any value (D1,
log 6). -/
def State.spOf (s : State) : Mode → Word
  | .kernel => s.regs.ksp
  | .reserved => s.regs.ssp
  | .illegal => Config.modeTwoSp s.free s.regs.xsp
  | .user => s.regs.usp

/-- The registers with the R6 of a mode replaced. -/
def Regs.withSp (g : Regs) (mode : Mode) (w : Word) : Regs :=
  match mode with
  | .kernel => { g with ksp := w }
  | .reserved => { g with ssp := w }
  | .illegal => { g with xsp := w }
  | .user => { g with usp := w }

/-- The registers with one replaced; R6 is that of `mode`. -/
def Regs.withReg (g : Regs) (mode : Mode) (r : Reg) (w : Word) : Regs :=
  match r with
  | .r0 => { g with r0 := w }
  | .r1 => { g with r1 := w }
  | .r2 => { g with r2 := w }
  | .r3 => { g with r3 := w }
  | .r4 => { g with r4 := w }
  | .r5 => { g with r5 := w }
  | .sp => g.withSp mode w
  | .pc => { g with pc := w }

/-- `R[n]` of R14, R6 being that of the current mode. -/
def State.reg (s : State) : Reg → Word
  | .r0 => s.regs.r0
  | .r1 => s.regs.r1
  | .r2 => s.regs.r2
  | .r3 => s.regs.r3
  | .r4 => s.regs.r4
  | .r5 => s.regs.r5
  | .sp => s.spOf s.mode
  | .pc => s.regs.pc

/-- The state with a register of the current mode replaced. -/
def State.withReg (s : State) (r : Reg) (w : Word) : State :=
  { s with regs := s.regs.withReg s.mode r w }

/-- Read the R6 of a mode; in mode 10 every read gives another free value (D1, log 6). -/
def readSpOf (mode : Mode) : M Word := fun s =>
  match mode with
  | .illegal => .ok (s.spOf mode) { s with free := s.free + 1 }
  | _ => .ok (s.spOf mode) s

/-- Write the R6 of a mode. -/
def writeSpOf (mode : Mode) (w : Word) : M Unit :=
  modify fun s => { s with regs := s.regs.withSp mode w }

/-- Read a register (spec/10_state.md R21). -/
def readReg (r : Reg) : M Word := do
  match r with
  | .sp => readSpOf (← get).mode
  | r => return (← get).reg r

/-- Write a register. -/
def writeReg (r : Reg) (w : Word) : M Unit :=
  modify fun s => s.withReg r w

/-- A reference to the next word of the instruction: checked, and the PC advanced by 2. A reference that the memory management
unit aborts is not made and leaves the PC as it was (R14, spec/20_memory.md R127); a bus cycle that fails, timed out or with a
parity error, finds the PC advanced (spec/10_state.md R28, spec/60_exceptions.md R705, R706). -/
def nextWord (write : Bool) : M Mapped := do
  let s ← get
  let m ← translate s.mode s.regs.pc write
  modify fun s => { s with regs := { s.regs with pc := s.regs.pc + 2 } }
  return m

/-- `fetch()` of R14: the word at the PC is read and the PC advanced by 2. -/
def fetchWord : M Word := do
  busRead (← nextWord false).pa

/-- `MemWrite(R[7], 2, v); R[7] <- R[7] + 2`: the word at the PC is written, the immediate destination of an instruction that
stores one word there (spec/47_fp_instructions.md R527, R553); the answer says whether it was the PS. -/
def storeNext (v : Word) : M Bool := do
  storeMapped (← nextWord true) .word v

/-- The fetch of an op-code word: SR2 is loaded with its virtual address when the fetch succeeds, unless an abort flag
freezes it (spec/10_state.md R52). -/
def fetchOpcode : M Word := do
  let pc := (← get).regs.pc
  let w ← fetchWord
  modify fun s => if s.frozen then s else { s with mmu := { s.mmu with sr2 := pc } }
  return w

/-- The condition codes are set, unless the instruction has just written the PS as its destination: the value written
stands (R40, D5, log 9). -/
def setCodes (wrotePs : Bool) (k : Codes) : M Unit :=
  if wrotePs then return else modify fun s => { s with ps := psWithCodes s.ps k }

/-- Set the pending stack overflow request when R6 is decremented below 400 in kernel mode (spec/60_exceptions.md R715,
D50, log 36). -/
def noteStackLimit (sp : Word) : M Unit :=
  modify fun s =>
    if s.mode = .kernel ∧ sp.toNat < 0o400 then { s with pend := { s.pend with stkovf := true } } else s

/-- `push(v)`: R6 is decremented, the limit is noted, the word is written in the current mode's space (R24). -/
def push (v : Word) : M Bool := do
  let sp := (← readReg .sp) - 2
  writeReg .sp sp
  noteStackLimit sp
  writeWord sp v

/-- `pop()`: the word is read, then R6 is incremented (R24). -/
def pop : M Word := do
  let sp ← readReg .sp
  let v ← readWord sp
  writeReg .sp (sp + 2)
  return v

/-- The vector an abort traps through (spec/60_exceptions.md R705, R706, R708). -/
def AbortKind.vector : AbortKind → Word
  | .mmu => 0o250
  | .timeout => 0o4
  | .parity => 0o114

/-- The trap sequence a stop leads to (R721, R722). -/
def Stop.request : Stop → TrapRequest
  | .abort k => { vector := k.vector, kind := .ordinary }
  | .trap v => { vector := v, kind := .ordinary }
  | .deadStack => { vector := 0o4, kind := .emergency }

/-- The PS a trap sequence loads: all fields from the vector, but the previous mode from the old current mode (R720). -/
def trapPs (old new : Word) : Word :=
  merge 0o030000 ((psMode old).bits.setWidth 16 <<< 12) (new &&& psImplemented)

/-- A push of a trap sequence: as `push`, but a timeout means the emergency stack (R722), and only an ordinary sequence
notes the stack limit (R715). -/
def pushTrap (kind : TrapKind) (v : Word) : M Unit := do
  let sp := (← readReg .sp) - 2
  writeReg .sp sp
  if kind = .ordinary then noteStackLimit sp else pure ()
  fun s =>
    match writeWord sp v s with
    | .ok _ s' => .ok () s'
    | .error (.abort .timeout) s' => .error .deadStack s'
    | .error e s' => .error e s'

/-- `trap_sequence(vector)` of R720, and its variant for the emergency stack (R722). A trap ends a WAIT. -/
def trapSequence (req : TrapRequest) : M Unit := do
  modify fun s => { s with run := .running }
  let newPs ← readWordIn .kernel (req.vector + 2)
  let old ← get
  modify fun s => { s with ps := trapPs old.ps newPs }
  if req.kind = .emergency then writeReg .sp 0o4 else pure ()
  pushTrap req.kind old.ps
  pushTrap req.kind old.regs.pc
  let newPc ← readWordIn .kernel req.vector
  modify fun s => { s with regs := { s.regs with pc := newPc } }

/-- TAKING AN EXCEPTION: perform a trap sequence. When one of its own references fails, what it has done stays done and a
new sequence is due, which the next step performs (R721, R722, log 37). -/
def performTrap (req : TrapRequest) (s : State) : State :=
  match trapSequence req s with
  | .ok _ s' => { s' with pend := { s'.pend with trap := none } }
  | .error stop s' => { s' with pend := { s'.pend with trap := some stop.request } }

/-- The trace request after a completed instruction is the T bit it leaves (R712). -/
def sampleTrace (s : State) : State := { s with pend := { s.pend with trace := psTrace s.ps } }

/-- After RTT the trace trap is inhibited once, whatever T was before it: R712 sets the flag to 0, where the parenthesis of
spec/44_jump_subroutine_trap.md R410 would take T from before the RTT (DESIGN CHOICE, log 54). -/
def inhibitTrace (s : State) : State := { s with pend := { s.pend with trace := false } }

/-- An instruction trap completes its instruction when its trap sequence does (R712 (e), log 35). -/
def completeTrap (s : State) : State := if s.pend.trap.isNone then sampleTrace s else s

/-- The state after an instruction has run: completed, trapped as its own act, or abandoned by an abort (R700). -/
def finish (complete : State → State) : EStateM.Result Stop State Unit → State
  | .ok _ s => complete s
  | .error (.trap v) s => completeTrap (performTrap (Stop.trap v).request s)
  | .error stop s => performTrap stop.request s

/-- Run the meaning of an instruction to its end. -/
def runInstr (m : M Unit) (s : State) : Host.Outcome State Fault Refusal :=
  .next (finish sampleTrace (m s))

/-- Run RTT: as `runInstr`, with no trace trap at its end. -/
def runReturnTrace (m : M Unit) (s : State) : Host.Outcome State Fault Refusal :=
  .next (finish inhibitTrace (m s))

/-- Raise an instruction trap: `raise X` of R14 for an X that the instruction itself asks for. -/
def raiseTrap (vector : Word) : M Unit := throw (.trap vector)

/-- The vector of reserved instructions (R703). -/
def vectorReserved : Word := 0o10

/-- The vector of illegal instructions, as of bus timeout (R705 (b)). -/
def vectorIllegal : Word := 0o4

/-- The bits RTI and RTT load: all in kernel mode, SI, T and the condition codes in any other (R39, R760). -/
def returnMask (mode : Mode) : Word :=
  match mode with
  | .kernel => psImplemented
  | _ => 0o000437

/-- RETURN FROM AN EXCEPTION, shared by RTI and RTT: pop the PC, pop the PS, load both
(spec/44_jump_subroutine_trap.md R409). -/
def returnFromTrap : M Unit := do
  let newPc ← pop
  let newPs ← pop
  modify fun s =>
    { s with regs := { s.regs with pc := newPc }, ps := merge (returnMask s.mode) newPs s.ps }

end Sys2Proof.Machine
end

