-- ==== Sys2Proof/Machine/Operands.lean ====
section
/-! DEFINITION. Every operand form: the eight modes of an operand field, and the ways an instruction reads and writes the
operand they name (spec/40_addressing_modes.md, spec/20_memory.md R104). -/

namespace Sys2Proof.Machine

/-- An operand location: a register, or a virtual address in the space the instruction uses (R240). -/
inductive Loc where
  | reg (r : Reg)
  | mem (ea : Word)
  deriving DecidableEq, Repr

/-- `step(n, sz)` of R244 and spec/46_fp_state.md R482: the operand's size in bytes, but 2 for a byte through R6, and 2 for
every size of 1 or 2 through the PC. -/
def stepOf (sz : Nat) (r : Reg) : Word :=
  if sz = 1 ∧ (r = .sp ∨ r = .pc) then 2 else BitVec.ofNat 16 sz

/-- Decrement a register, noting the kernel stack limit when it is R6 (R247, spec/60_exceptions.md R715). -/
def decrement (r : Reg) (n : Word) : M Word := do
  let a := (← readReg r) - n
  writeReg r a
  if r = .sp then noteStackLimit a else pure ()
  return a

/-- Increment a register, returning what it held (R245). -/
def increment (r : Reg) (n : Word) : M Word := do
  let a ← readReg r
  writeReg r (a + n)
  return a

/-- The sum of an index word, fetched first, and a register (R249, R252). -/
def indexed (r : Reg) : M Word := do
  let x ← fetchWord
  return (← readReg r) + x

/-- The address of an autoincrement operand from what its register held. A byte immediate is the low byte of the word at the
PC (R250, spec/30_encoding.md R214, spec/00_scope.md R14), also when the PC is odd, where the general formulas of R240 and R241
would give the high byte (DESIGN CHOICE, log 61). -/
def autoincAddr (sz : Nat) (r : Reg) (a : Word) : Word := if sz = 1 ∧ r = .pc then a &&& 0o177776 else a

/-- `eval_field(mode, n, sz)` of R240. In mode 3 the register is incremented before the pointer is read (R264, D14). The step
past an immediate word is done before the word is referenced, and stays where the memory management unit aborts that
reference (R240, R264, D14), though spec/00_scope.md R14 counts the word among those of `fetch()` (DESIGN CHOICE, log 63). -/
def evalField (sz : Nat) (o : Operand) : M Loc := do
  match o.mode with
  | .register => return .reg o.reg
  | .registerDeferred => return .mem (← readReg o.reg)
  | .autoinc => return .mem (autoincAddr sz o.reg (← increment o.reg (stepOf sz o.reg)))
  | .autoincDeferred => return .mem (← readWord (← increment o.reg 2))
  | .autodec => return .mem (← decrement o.reg (stepOf sz o.reg))
  | .autodecDeferred => return .mem (← readWord (← decrement o.reg 2))
  | .index => return .mem (← indexed o.reg)
  | .indexDeferred => return .mem (← readWord (← indexed o.reg))

/-- `read(loc, 2)` of R241. -/
def readLoc : Loc → M Word
  | .reg r => readReg r
  | .mem ea => readWord ea

/-- `read(loc, 1)` of R241: the low byte of a register. -/
def readLocByte : Loc → M Byte
  | .reg r => do return lowByte (← readReg r)
  | .mem ea => readByte ea

/-- Write the low byte of a register, the high byte unchanged (R241). -/
def writeRegByte (r : Reg) (b : Byte) : M Unit := do
  let old ← readReg r
  writeReg r (wordOf (highByte old) b)

/-- `write(loc, 2, v)` of R241; the answer says whether the PS was written. -/
def writeLoc (l : Loc) (v : Word) : M Bool := do
  match l with
  | .reg r => writeReg r v; return false
  | .mem ea => writeWord ea v

/-- `write(loc, 1, b)` of R241. -/
def writeLocByte (l : Loc) (b : Byte) : M Bool := do
  match l with
  | .reg r => writeRegByte r b; return false
  | .mem ea => writeByte ea b

/-- The PS condition codes now. -/
def codesNow : M Codes := do return psCodes (← get).ps

/-- The codes after a read-only operand, which no write can have replaced. -/
def setCodesOnly (k : Codes) : M Unit := setCodes false k

/-- Read a word, compute, write it back: one evaluation of the field, and in memory one DATIO, checked once as a write
before its read half (R241, spec/20_memory.md R104, R125). -/
def modifyWord (l : Loc) (f : Codes → Word → AluResult 16) : M Unit := do
  match l with
  | .reg r =>
    let (v, k) := f (← codesNow) (← readReg r)
    writeReg r v
    setCodesOnly k
  | .mem ea =>
    let m ← translate (← get).mode ea true
    busGrant
    let (v, k) := f (← codesNow) (← readCycle m.pa)
    setCodes (← writeBack m .word v) k

/-- The byte form of `modifyWord`: one DATIOB. -/
def modifyByte (l : Loc) (f : Codes → Byte → AluResult 8) : M Unit := do
  match l with
  | .reg r =>
    let (v, k) := f (← codesNow) (lowByte (← readReg r))
    writeRegByte r v
    setCodesOnly k
  | .mem ea =>
    let m ← translate (← get).mode ea true
    busGrant
    let (v, k) := f (← codesNow) (selectByte m.pa (← readCycle m.pa))
    setCodes (← writeBack m .byte (onBothLanes v)) k

/-- Write a word without reading it: one DATO (R104). -/
def storeWord (l : Loc) (v : AluResult 16) : M Unit := do
  setCodes (← writeLoc l v.1) v.2

/-- Write a byte without reading it: one DATOB. -/
def storeByte (l : Loc) (v : AluResult 8) : M Unit := do
  setCodes (← writeLocByte l v.1) v.2

/-- The frame of the word instructions that read and rewrite one operand (spec/41_single_operand.md R300). -/
def singleWord (dst : Operand) (f : Codes → Word → AluResult 16) : M Unit := do
  modifyWord (← evalField 2 dst) f

/-- The byte form of `singleWord`. -/
def singleByte (dst : Operand) (f : Codes → Byte → AluResult 8) : M Unit := do
  modifyByte (← evalField 1 dst) f

/-- A source operand that stands until the destination field is evaluated: a memory source has been read, a register
source is read afterwards (R262). -/
inductive Source (α : Type) where
  | reg (r : Reg)
  | value (v : α)

/-- Evaluate a word source field and read it if it is in memory (R262 step 2). -/
def sourceWord (src : Operand) : M (Source Word) := do
  match (← evalField 2 src) with
  | .reg r => return .reg r
  | .mem ea => return .value (← readWord ea)

/-- Evaluate a byte source field and read it if it is in memory (R262 step 2). -/
def sourceByte (src : Operand) : M (Source Byte) := do
  match (← evalField 1 src) with
  | .reg r => return .reg r
  | .mem ea => return .value (← readByte ea)

/-- The word of a source, a register read now (R262 step 4). -/
def Source.word : Source Word → M Word
  | .reg r => readReg r
  | .value v => return v

/-- The byte of a source, a register read now (R262 step 4). -/
def Source.byte : Source Byte → M Byte
  | .reg r => do return lowByte (← readReg r)
  | .value v => return v

/-- The frame of the double-operand word instructions: source field, destination field, then the source register if it is
one (R330, R262). The continuation gets the source and the destination's location. -/
def doubleWord (src dst : Operand) (k : Word → Loc → M Unit) : M Unit := do
  let s ← sourceWord src
  let l ← evalField 2 dst
  k (← s.word) l

/-- The byte form of `doubleWord`. -/
def doubleByte (src dst : Operand) (k : Byte → Loc → M Unit) : M Unit := do
  let s ← sourceByte src
  let l ← evalField 1 dst
  k (← s.byte) l

/-- The source word of MUL, DIV, ASH, ASHC, LDFPS and the like: evaluated and read at once (R262, R340). -/
def operandWord (src : Operand) : M Word := do
  readLoc (← evalField 2 src)

end Sys2Proof.Machine
end

