-- ==== Sys2Proof/Machine/Branch.lean ====
section
/-! DEFINITION. The branches and SOB (spec/43_branch.md): one definition each, over the frame of R370. -/

namespace Sys2Proof.Machine

/-- Twice a signed byte offset, as 16 bits (R370). -/
def branchOffset (offset : Byte) : Word := signExtendByte offset <<< 1

/-- The frame of the branches: when the condition holds of the codes, the offset is added to the PC (R370). -/
def branchIf (cond : Codes → Bool) (offset : Byte) : M Unit := do
  if cond (← codesNow) then
    modify fun s => { s with regs := { s.regs with pc := s.regs.pc + branchOffset offset } }
  else pure ()

/-- BR, R371: always. -/
def execBr (offset : Byte) (s : State) : Host.Outcome State Fault Refusal :=
  runInstr (branchIf (fun _ => true) offset) s

/-- BNE, R372: Z = 0. -/
def execBne (offset : Byte) (s : State) : Host.Outcome State Fault Refusal :=
  runInstr (branchIf (fun k => !k.z) offset) s

/-- BEQ, R373: Z = 1. -/
def execBeq (offset : Byte) (s : State) : Host.Outcome State Fault Refusal :=
  runInstr (branchIf (fun k => k.z) offset) s

/-- BPL, R374: N = 0. -/
def execBpl (offset : Byte) (s : State) : Host.Outcome State Fault Refusal :=
  runInstr (branchIf (fun k => !k.n) offset) s

/-- BMI, R375: N = 1. -/
def execBmi (offset : Byte) (s : State) : Host.Outcome State Fault Refusal :=
  runInstr (branchIf (fun k => k.n) offset) s

/-- BVC, R376: V = 0. -/
def execBvc (offset : Byte) (s : State) : Host.Outcome State Fault Refusal :=
  runInstr (branchIf (fun k => !k.v) offset) s

/-- BVS, R377: V = 1. -/
def execBvs (offset : Byte) (s : State) : Host.Outcome State Fault Refusal :=
  runInstr (branchIf (fun k => k.v) offset) s

/-- BCC, R378: C = 0. -/
def execBcc (offset : Byte) (s : State) : Host.Outcome State Fault Refusal :=
  runInstr (branchIf (fun k => !k.c) offset) s

/-- BCS, R379: C = 1. -/
def execBcs (offset : Byte) (s : State) : Host.Outcome State Fault Refusal :=
  runInstr (branchIf (fun k => k.c) offset) s

/-- BGE, R380: N xor V = 0. -/
def execBge (offset : Byte) (s : State) : Host.Outcome State Fault Refusal :=
  runInstr (branchIf (fun k => !(k.n ^^ k.v)) offset) s

/-- BLT, R381: N xor V = 1. -/
def execBlt (offset : Byte) (s : State) : Host.Outcome State Fault Refusal :=
  runInstr (branchIf (fun k => k.n ^^ k.v) offset) s

/-- BGT, R382: Z or (N xor V) = 0. -/
def execBgt (offset : Byte) (s : State) : Host.Outcome State Fault Refusal :=
  runInstr (branchIf (fun k => !(k.z || (k.n ^^ k.v))) offset) s

/-- BLE, R383: Z or (N xor V) = 1. -/
def execBle (offset : Byte) (s : State) : Host.Outcome State Fault Refusal :=
  runInstr (branchIf (fun k => k.z || (k.n ^^ k.v)) offset) s

/-- BHI, R384: C = 0 and Z = 0. -/
def execBhi (offset : Byte) (s : State) : Host.Outcome State Fault Refusal :=
  runInstr (branchIf (fun k => !k.c && !k.z) offset) s

/-- BLOS, R385: C or Z = 1. -/
def execBlos (offset : Byte) (s : State) : Host.Outcome State Fault Refusal :=
  runInstr (branchIf (fun k => k.c || k.z) offset) s

/-- SOB, R390: the register is decremented; unless it is then 0, twice NN is taken from the PC. No flag changes. -/
def execSob (r : Reg) (nn : BitVec 6) (s : State) : Host.Outcome State Fault Refusal :=
  runInstr (do
    let v := (← readReg r) - 1
    writeReg r v
    if v = 0 then pure ()
    else modify fun s => { s with regs := { s.regs with pc := s.regs.pc - (nn.setWidth 16 <<< 1) } }) s

end Sys2Proof.Machine
end

