-- ==== Sys2Proof/Machine/FpFormat.lean ====
section
/-! DEFINITION. Floating-point numbers and their arithmetic (spec/46_fp_state.md sections 2 and 5).

A value of either format is held left-justified in 64 bits, as an accumulator holds it (R477): an F value has its low 32
bits zero, and sign, exponent and fraction stand at the same places in both formats. -/

namespace Sys2Proof.Machine

/-- The two formats (R471). -/
inductive Fmt where
  | f
  | d
  deriving DecidableEq, Repr

/-- The other format (spec/47_fp_instructions.md R528). -/
def Fmt.other : Fmt → Fmt
  | .f => .d
  | .d => .f

/-- The effective fraction length `L` (R471). -/
def Fmt.fraction : Fmt → Nat
  | .f => 24
  | .d => 56

/-- The operand size in bytes (R480). -/
def Fmt.bytes : Fmt → Nat
  | .f => 4
  | .d => 8

/-- `SIGN(v)`: bit 15 of the first word. The bit positions are the spec's general knowledge (R471, PRESUMED, log 60). -/
def fpSign (v : Quad) : Bool := v.msb

/-- `EXPF(v)`: the biased exponent, bits 14 to 7 of the first word (R471, PRESUMED, log 60). -/
def fpExp (v : Quad) : Nat := (v.extractLsb' 55 8).toNat

/-- "`v` is zero": its exponent field is 0 (R473). -/
def fpZero (v : Quad) : Bool := fpExp v == 0

/-- The undefined variable -0 (R473). -/
def fpUndefined (v : Quad) : Bool := fpZero v && fpSign v

/-- Cut a value to a format: F keeps the high 32 bits (R477). -/
def Fmt.cut : Fmt → Quad → Quad
  | .f, v => (v.extractLsb' 32 32 : BitVec 32) ++ (0 : BitVec 32)
  | .d, v => v

/-- The value as an integer over 2 ^ (184 - `EXPF(v)`): sign, then hidden bit and fraction; 0 when the exponent field is 0
(R473, R486). -/
def fpMantissa (v : Quad) : Int :=
  if fpZero v then 0
  else
    let m : Int := 2 ^ 55 + (v.extractLsb' 0 55).toNat
    if fpSign v then -m else m

/-- `pack(s, e, F)` of R488, the exponent taken modulo 256, the fraction `F` of `L` bits. -/
def fpPack (fmt : Fmt) (sign : Bool) (e : Int) (fraction : Nat) : Quad :=
  BitVec.ofBool sign ++ (BitVec.ofInt 8 e ++ BitVec.ofNat 55 (fraction * 2 ^ (56 - fmt.fraction)))

/-- How many bits a positive number has. -/
def bitLength (n : Nat) : Nat := n.log2 + 1

/-- `fp_norm` of R487 on the positive number `num / den * 2 ^ e`: the unbounded biased exponent and the fraction of `L`
bits, chopped or rounded. -/
def fpNorm (fmt : Fmt) (chop : Bool) (num den : Nat) (e : Int) : Int × Nat :=
  let l := fmt.fraction
  let shift := l + 3 + den.log2
  let q := num * 2 ^ shift / den
  let b := bitLength q
  let k : Int := (b : Int) - shift + e
  let cut := q / 2 ^ (b - l)
  let rbit := q / 2 ^ (b - l - 1) % 2
  let fraction := if !chop && rbit == 1 then cut + 1 else cut
  if fraction = 2 ^ l then (k + 129, 2 ^ (l - 1)) else (k + 128, fraction)

/-- The bits of the FPS that steer arithmetic (R478, spec/10_state.md R56). -/
structure FpModes where
  fmt : Fmt
  /-- FT. -/
  chop : Bool
  /-- FIV. -/
  overflowTraps : Bool
  /-- FIU. -/
  underflowTraps : Bool
  /-- FIC. -/
  conversionTraps : Bool
  /-- FIUV. -/
  undefinedTraps : Bool
  /-- FL. -/
  long : Bool
  deriving DecidableEq, Repr

/-- The modes an FPS selects. -/
def fpModes (fps : Word) : FpModes where
  fmt := if fps.getLsbD 7 then .d else .f
  chop := fps.getLsbD 5
  overflowTraps := fps.getLsbD 9
  underflowTraps := fps.getLsbD 10
  conversionTraps := fps.getLsbD 8
  undefinedTraps := fps.getLsbD 11
  long := fps.getLsbD 6

/-- The floating exception codes (R490). -/
inductive FpError where
  | opCode
  | divideByZero
  | conversion
  | overflow
  | underflow
  | undefinedVariable
  deriving DecidableEq, Repr

/-- The code the FEC takes (R490). -/
def FpError.code : FpError → BitVec 4
  | .opCode => 2
  | .divideByZero => 4
  | .conversion => 6
  | .overflow => 8
  | .underflow => 10
  | .undefinedVariable => 12

/-- What an operation delivers: the value, FV, and the exception it raises after storing, if any. -/
structure Delivered where
  value : Quad
  fv : Bool
  error : Option FpError
  deriving DecidableEq, Repr

/-- Exact 0, no exception. -/
def Delivered.zero : Delivered := { value := 0, fv := false, error := none }

/-- An exponent outside 1 to 377: the low eight bits and an exception when it is enabled, else exact 0 (R488). -/
def fpLimit (md : FpModes) (fmt : Fmt) (sign : Bool) (e : Int) (fraction : Nat) : Delivered :=
  if 0o377 < e then
    if md.overflowTraps then { value := fpPack fmt sign e fraction, fv := true, error := some .overflow }
    else { value := 0, fv := true, error := none }
  else if e < 1 then
    if md.underflowTraps then { value := fpPack fmt sign e fraction, fv := false, error := some .underflow }
    else Delivered.zero
  else { value := fpPack fmt sign e fraction, fv := false, error := none }

/-- `fp_deliver` of R488 on the exact number `num / den * 2 ^ e`. -/
def fpDeliver (md : FpModes) (num : Int) (den : Nat) (e : Int) : Delivered :=
  if num = 0 then Delivered.zero
  else
    let r := fpNorm md.fmt md.chop num.natAbs den e
    fpLimit md md.fmt (decide (num < 0)) r.1 r.2

/-- The sum of two values over 2 ^ (184 - the smaller exponent). -/
def fpSumMantissa (a s : Quad) : Int :=
  let m := min (fpExp a) (fpExp s)
  fpMantissa a * 2 ^ (fpExp a - m) + fpMantissa s * 2 ^ (fpExp s - m)

/-- The value with its sign inverted, unless it is zero. -/
def fpNegate (v : Quad) : Quad := if fpZero v then 0 else v ^^^ 0x8000000000000000

/-- ADDF, R540. -/
def fpAdd (md : FpModes) (a s : Quad) : Delivered :=
  fpDeliver md (fpSumMantissa a s) 1 ((min (fpExp a) (fpExp s) : Nat) - 184)

/-- SUBF, R541. -/
def fpSub (md : FpModes) (a s : Quad) : Delivered := fpAdd md a (fpNegate s)

/-- MULF, R542. -/
def fpMul (md : FpModes) (a s : Quad) : Delivered :=
  fpDeliver md (fpMantissa a * fpMantissa s) 1 ((fpExp a : Int) + fpExp s - 368)

/-- DIVF by a nonzero divisor, R543. -/
def fpDiv (md : FpModes) (a s : Quad) : Delivered :=
  fpDeliver md (fpMantissa a * (fpMantissa s).sign) (fpMantissa s).natAbs ((fpExp a : Int) - fpExp s)

/-- The low `n` bits of a value taken from `free`, the rest kept (I27, log 29). -/
def freeLowBits (n : Nat) (free v : Quad) : Quad :=
  let mask : Quad := BitVec.ofNat 64 (2 ^ n - 1)
  (v &&& ~~~mask) ||| (free &&& mask)

/-- What MODF delivers: the integer part, the fraction part, FV and the exception (R544). -/
structure ModResult where
  whole : Quad
  part : Delivered
  deriving DecidableEq, Repr

/-- MODF, R544: cases 1 to 5. In double mode with 2 ** p <= |N| and p > 7 the low p - 7 bits of g are any value (I27,
log 29), but for g = 0, which stays the exact 0 of R544's pseudocode, where I27 makes no exception (DESIGN CHOICE, log 29). -/
def fpMod (md : FpModes) (free a s : Quad) : ModResult :=
  let p := fpMantissa a * fpMantissa s
  let e : Int := (fpExp a : Int) + fpExp s - 368
  let l := md.fmt.fraction
  if p = 0 then { whole := 0, part := Delivered.zero }
  else
    let sign := decide (p < 0)
    let m := p.natAbs
    let b := bitLength m
    let k : Int := (b : Int) + e
    let chopped := m * 2 ^ l / 2 ^ b
    if 0o377 < k + 128 then
      if md.overflowTraps then
        { whole := fpPack md.fmt sign (k + 128) chopped, part := { value := 0, fv := true, error := some .overflow } }
      else { whole := 0, part := { value := 0, fv := true, error := none } }
    else if (l : Int) < k then { whole := fpPack md.fmt sign (k + 128) chopped, part := Delivered.zero }
    else if 1 ≤ k then
      let down := (-e).toNat
      let n := m * 2 ^ e.toNat / 2 ^ down
      let g := m * 2 ^ e.toNat % 2 ^ down
      let whole := fpNorm md.fmt true n 1 0
      let part :=
        if g = 0 then 0
        else
          let r := fpNorm md.fmt md.chop g 1 (-down)
          let exact := fpPack md.fmt sign r.1 r.2
          if md.fmt = .d ∧ 8 < k then freeLowBits (k - 8).toNat free exact else exact
      { whole := fpPack md.fmt sign whole.1 whole.2, part := { value := part, fv := false, error := none } }
    else
      let r := fpNorm md.fmt md.chop m 1 e
      { whole := 0, part := fpLimit { md with overflowTraps := false } md.fmt sign r.1 r.2 }

/-- FSRC minus AC, exactly, as a sign (CMPF, R545). -/
def fpCompare (s a : Quad) : Int := fpSumMantissa s (fpNegate a)

/-- The value with its exponent field replaced (LDEXP, R551). -/
def fpWithExp (v : Quad) (e : Int) : Quad :=
  BitVec.ofBool (fpSign v) ++ (BitVec.ofInt 8 e ++ (v.extractLsb' 0 55))

/-- LDEXP, R551. -/
def fpLoadExp (md : FpModes) (a : Quad) (n : Int) : Delivered :=
  if 0o177 < n then
    if md.overflowTraps then { value := fpWithExp a (n + 0o200), fv := true, error := some .overflow }
    else { value := 0, fv := true, error := none }
  else if n < -0o177 then
    if md.underflowTraps then { value := fpWithExp a (n + 0o200), fv := false, error := some .underflow }
    else Delivered.zero
  else { value := fpWithExp a (n + 0o200), fv := false, error := none }

/-- An integer as a floating value (R552). -/
def fpOfInt (md : FpModes) (n : Int) : Quad :=
  if n = 0 then 0
  else
    let r := fpNorm md.fmt md.chop n.natAbs 1 0
    fpPack md.fmt (decide (n < 0)) r.1 r.2

/-- The integer part, toward zero (R553). -/
def fpTrunc (a : Quad) : Int :=
  let e : Int := (fpExp a : Int) - 184
  if 0 ≤ e then fpMantissa a * 2 ^ e.toNat else (fpMantissa a).tdiv (2 ^ (-e).toNat)

/-- A D value as an F value: only a rounding carry out of exponent 377 overflows, to a signed 0 or to exact 0 (R554,
R555). -/
def fpNarrow (md : FpModes) (v : Quad) : Delivered :=
  if fpZero v then Delivered.zero
  else
    let r := fpNorm .f md.chop (fpMantissa v).natAbs 1 ((fpExp v : Int) - 184)
    if 0o377 < r.1 then
      if md.overflowTraps then
        { value := fpPack .f (fpSign v) 0 (2 ^ 23), fv := true, error := some .overflow }
      else { value := 0, fv := true, error := none }
    else { value := fpPack .f (fpSign v) r.1 r.2, fv := false, error := none }

/-- Conversion from the format `src` to the other (R554, R555): widening keeps the bits, a zero becomes exact 0. -/
def fpConvert (md : FpModes) (src : Fmt) (v : Quad) : Delivered :=
  match src with
  | .d => fpNarrow md v
  | .f => { value := if fpZero v then 0 else v, fv := false, error := none }

end Sys2Proof.Machine
end

