-- ==== Sys2Proof/Machine/FpOps.lean ====
section
/-! DEFINITION. What the floating-point instructions share: operand access, condition codes, exceptions
(spec/46_fp_state.md sections 3, 4 and 6). -/

namespace Sys2Proof.Machine

/-- Replace bits of the FPS. -/
def mergeFps (mask v : Word) : M Unit :=
  modify fun s => { s with fpp := { s.fpp with fps := merge mask v s.fpp.fps } }

/-- FN, FZ, FV, FC (R478). -/
def setFcc (k : Codes) : M Unit := mergeFps 0o17 k.toWord

/-- `set_fcc(v, fv, 0)` of R478. -/
def fccOf (v : Quad) (fv : Bool) : Codes := { n := fpSign v, z := fpZero v, v := fv, c := false }

/-- The accumulator a mode-0 FSRC or FDST field names: none for AC6 and AC7 (R481). -/
def accOf : Reg → Option (Fin 6)
  | .r0 => some 0
  | .r1 => some 1
  | .r2 => some 2
  | .r3 => some 3
  | .r4 => some 4
  | .r5 => some 5
  | .sp => none
  | .pc => none

/-- The accumulator an AC field names. -/
def acIndex : Ac → Fin 6
  | .ac0 => 0
  | .ac1 => 1
  | .ac2 => 2
  | .ac3 => 3

/-- `ac_read` of R477. -/
def readAc (fmt : Fmt) (n : Fin 6) : M Quad := do return fmt.cut (← get).fpp.ac[n]

/-- The accumulator after a write in a format: an F write keeps the low half (R477, D34, log 27). -/
def acMerge (fmt : Fmt) (old v : Quad) : Quad :=
  match fmt with
  | .d => v
  | .f => (v.extractLsb' 32 32 : BitVec 32) ++ (old.extractLsb' 0 32 : BitVec 32)

/-- `ac_write` of R477. -/
def writeAc (fmt : Fmt) (n : Fin 6) (v : Quad) : M Unit :=
  modify fun s => { s with fpp := { s.fpp with ac := s.fpp.ac.set n (acMerge fmt s.fpp.ac[n] v) } }

/-- `FPException(code)` of R490: FER, FEC, FEA, then the trap through 244 unless FID holds it off (R492). -/
def fpException (fea : Word) (err : FpError) : M Unit := do
  modify fun s =>
    { s with fpp := { s.fpp with fps := s.fpp.fps ||| 0o100000, fec := err.code, fea := fea } }
  if (← get).fpp.fps.getLsbD 14 then pure () else throw (.trap 0o244)

/-- Raise the exception an operation delivered, after its result is stored (R488). -/
def fpRaise (fea : Word) : Option FpError → M Unit
  | none => pure ()
  | some err => fpException fea err

/-- The location of a floating or long operand (R484). -/
inductive FpLoc where
  | acc (n : Fin 6)
  /-- The one word after the instruction (R483). -/
  | imm (a : Word)
  | mem (a : Word)
  deriving DecidableEq, Repr

/-- The field is mode 2 with register 7 (R483). -/
def isImmediate (o : Operand) : Bool := o.mode == .autoinc && o.reg == .pc

/-- The location `fp_dst` of R484 gives of an operand of `sz` bytes in modes 1 to 7; an immediate operand is one word, past
which the PC steps (R482, R483). -/
def fpAddress (sz : Nat) (o : Operand) : M FpLoc := do
  if isImmediate o then return .imm (← increment .pc 2)
  else
    match (← evalField sz o) with
    | .mem ea => return .mem ea
    | .reg _ => return .imm 0

/-- `fp_dst` of R484, and what follows with the location; AC6 and AC7 are an illegal op code (R481, R493). -/
def withFpLoc (fea : Word) (fmt : Fmt) (o : Operand) (k : FpLoc → M Unit) : M Unit := do
  if o.mode = .register then
    match accOf o.reg with
    | some n => k (.acc n)
    | none => fpException fea .opCode
  else k (← fpAddress fmt.bytes o)

/-- Read a value in memory, words in ascending order (R472, R484). -/
def readFp (fmt : Fmt) (a : Word) : M Quad := do
  let w0 ← readWord a
  let w1 ← readWord (a + 2)
  match fmt with
  | .f => return (w0 ++ (w1 ++ (0 : BitVec 32)))
  | .d =>
    let w2 ← readWord (a + 4)
    let w3 ← readWord (a + 6)
    return (w0 ++ (w1 ++ (w2 ++ w3)))

/-- `fp_src` of R484 in modes 1 to 7, the location and the value: an immediate operand is one word, which is read before the
PC steps past it (R483). -/
def fpSource (fmt : Fmt) (o : Operand) : M (FpLoc × Quad) := do
  if isImmediate o then
    let a := (← get).regs.pc
    let w ← fetchWord
    return (.imm a, w ++ (0 : BitVec 48))
  else
    match (← evalField fmt.bytes o) with
    | .mem ea => return (.mem ea, ← readFp fmt ea)
    | .reg _ => return (.imm 0, 0)

/-- `fp_src` of R484, and what follows with the location and the value; AC6 and AC7 are an illegal op code (R481, R493). -/
def withFpSource (fea : Word) (fmt : Fmt) (o : Operand) (k : FpLoc → Quad → M Unit) : M Unit := do
  if o.mode = .register then
    match accOf o.reg with
    | some n => k (.acc n) (← readAc fmt n)
    | none => fpException fea .opCode
  else
    let x ← fpSource fmt o
    k x.1 x.2

/-- The words of a value, most significant first (R472). -/
def quadWord (v : Quad) (i : Nat) : Word := v.extractLsb' (48 - 16 * i) 16

/-- `fp_store` of R484. -/
def writeFp (fmt : Fmt) (v : Quad) : FpLoc → M Unit
  | .acc n => writeAc fmt n v
  | .imm a => do
    let _ ← writeWord a (quadWord v 0)
  | .mem a => do
    let _ ← writeWord a (quadWord v 0)
    let _ ← writeWord (a + 2) (quadWord v 1)
    match fmt with
    | .f => pure ()
    | .d =>
      let _ ← writeWord (a + 4) (quadWord v 2)
      let _ ← writeWord (a + 6) (quadWord v 3)

/-- The location is an accumulator: a -0 there never traps (R489). -/
def FpLoc.isAcc : FpLoc → Bool
  | .acc _ => true
  | _ => false

/-- `uv_check` of R489 as a question. -/
def undefinedTrap (md : FpModes) (l : FpLoc) (v : Quad) : Bool :=
  md.undefinedTraps && !l.isAcc && fpUndefined v

/-- An FSRC operand of an arithmetic instruction: read, then checked for -0 before execution (R489). -/
def withFpOperand (fea : Word) (md : FpModes) (o : Operand) (k : Quad → M Unit) : M Unit :=
  withFpSource fea md.fmt o fun l v => do
    if undefinedTrap md l v then fpException fea .undefinedVariable else k v

/-- The frame of every floating-point instruction: reserved when the option is absent (spec/30_encoding.md R217); the
address of its op-code word is what the FEA would take (R490, log 30). -/
def fpInstr (body : Word → FpModes → M Unit) : M Unit := do
  let s ← get
  if s.cfg.fpPresent then body (s.regs.pc - 2) (fpModes s.fpp.fps) else throw (.trap vectorReserved)

/-- Store a delivered result in an accumulator, set the codes from it, then raise (R488). -/
def deliverTo (fea : Word) (fmt : Fmt) (n : Fin 6) (r : Delivered) : M Unit := do
  writeAc fmt n r.value
  setFcc (fccOf r.value r.fv)
  fpRaise fea r.error

/-- The frame of ADDF, SUBF and MULF (R540 to R542). -/
def fpArith (ac : Ac) (fsrc : Operand) (f : FpModes → Quad → Quad → Delivered) : M Unit :=
  fpInstr fun fea md =>
    withFpOperand fea md fsrc fun v => do
      let a ← readAc md.fmt (acIndex ac)
      deliverTo fea md.fmt (acIndex ac) (f md a v)

/-- The location of a long integer or of the two words of STST: a register, one immediate word, or two words (R480,
R483). -/
inductive LongLoc where
  | reg (r : Reg)
  /-- The word at the PC, past which its reference steps. -/
  | imm
  | mem (a : Word)
  deriving DecidableEq, Repr

/-- Evaluate such a field, with a step of 4 (R482, D37). An immediate word is referenced before the PC steps past it
(spec/47_fp_instructions.md R527, R552, R553). -/
def longLoc (o : Operand) : M LongLoc := do
  if isImmediate o then return .imm
  else
    match (← evalField 4 o) with
    | .reg r => return .reg r
    | .mem ea => return .mem ea

/-- Read a long integer, its high word first in memory (R476, PRESUMED, log 60); one word is left-justified (R552). -/
def readLong : LongLoc → M (BitVec 32)
  | .reg r => do return (← readReg r) ++ (0 : Word)
  | .imm => do return (← fetchWord) ++ (0 : Word)
  | .mem a => do
    let hi ← readWord a
    let lo ← readWord (a + 2)
    return hi ++ lo

/-- Write two words, the high one first (R476, PRESUMED, log 60), or only the first of them; the answer says whether the PS
was written (R527, R553). -/
def writeLong (hi lo : Word) : LongLoc → M Bool
  | .reg r => do
    writeReg r hi
    return false
  | .imm => storeNext hi
  | .mem a => do
    let p ← writeWord a hi
    let q ← writeWord (a + 2) lo
    return p || q

end Sys2Proof.Machine
end

