-- ==== Sys2Proof/Machine/CisCommon.lean ====
section
/-! DEFINITION. What the commercial instructions share: presence of the option, the two strengths of "unpredictable",
operand delivery, character strings in memory (spec/48_cis_character.md R580 to R591). -/

namespace Sys2Proof.Machine

/-- The two forms of a commercial instruction (R580): operands in registers, or words after the op code. -/
inductive CisForm where
  | register
  | inLine
  deriving DecidableEq, Repr

/-- The physical address of a byte in the space of the current mode, whatever its protection; none where the mode has no
page registers. -/
def State.physicalOf (s : State) (va : Word) : Option PAddr :=
  if s.relocating then (pageSetOf s.mode).map fun p => relocate s.mmu p va else some (unmapped va)

/-- Where the byte at a physical address is stored: in memory at the address memory decodes, so that with 18 address lines
two addresses 2^18 apart are one place (spec/20_memory.md R114), or in the I/O page. -/
def placeAt (cfg : Config) (pa : PAddr) : Nat := if isIoPage pa then pa.toNat else memoryAddr cfg pa

/-- Where a byte of the current mode's space is stored. Two virtual addresses overlap when they share it (log 32). -/
def State.placeOf (s : State) (va : Word) : Option Nat := (s.physicalOf va).map (placeAt s.cfg)

/-- Two lists of byte addresses designate a common byte (R589, spec/49_cis_decimal.md R650). -/
def State.overlaps (s : State) (xs ys : List Word) : Bool :=
  let places := ys.filterMap s.placeOf
  (xs.filterMap s.placeOf).any fun p => places.contains p

/-- The addresses of `n` consecutive bytes, modulo 2^16 (R583, D44). -/
def byteAddrs (a : Word) (n : Nat) : List Word := (List.range n).map fun i => a + BitVec.ofNat 16 i

/-- A write an unpredictable effect may make: through the mapping, and outside kernel mode not of the PS or of a register
of the memory management unit (R581 (b), I31). -/
def mayScribble (cfg : Config) (mode : Mode) (pa : PAddr) : Bool :=
  mode == .kernel || !isIoPage pa ||
    match ioDecode cfg pa with
    | some .ps | some .sr0 | some .sr1 | some .sr2 | some .sr3 | some (.par _ _) | some (.pdr _ _) => false
    | _ => true

/-- One store of an unpredictable effect; a byte that the mode may not write stays as it is, and so do the W bits of the
page registers (R581 (b)). -/
def scribble (mode : Mode) (s : State) (store : Word × Byte) : State :=
  match translate mode store.1 true s with
  | .error _ _ => s
  | .ok m _ =>
    if mayScribble s.cfg mode m.pa then
      match busWrite m.pa (laneOf .byte m.pa) (onBothLanes store.2) s with
      | .ok _ s' => s'
      | .error _ _ => s
    else s

/-- The vectors of the instruction traps an unpredictable effect may manifest itself as (spec/60_exceptions.md R702). -/
def unpredictableVector (i : Fin 6) : Word := #v[0o4, 0o10, 0o14, 0o20, 0o30, 0o34][i]

/-- The floating-point exceptions in the order of their codes (spec/46_fp_state.md R490). -/
def fpErrorOf (i : Fin 6) : FpError :=
  #v[.opCode, .divideByZero, .conversion, .overflow, .underflow, .undefinedVariable][i]

/-- A floating-point trap can be met: the option is there, FID is 0, and the exception is enabled where it has an enable bit
(spec/46_fp_state.md R490, spec/60_exceptions.md R709). -/
def fpTrapPossible (s : State) (e : FpError) : Bool :=
  let md := fpModes s.fpp.fps
  s.cfg.fpPresent && !s.fpp.fps.getLsbD 14 &&
    match e with
    | .opCode => true
    | .divideByZero => true
    | .conversion => md.conversionTraps
    | .overflow => md.overflowTraps
    | .underflow => md.underflowTraps
    | .undefinedVariable => md.undefinedTraps

/-- The values an unpredictable effect leaves in the registers of the current mode and in PS<8> and PS<3:0> (R581 (b)). -/
def applyUnpredictable (u : Unpredictable) (mode : Mode) (s : State) : State :=
  let s := u.stores.foldl (scribble mode) s
  { s with
    regs := { s.regs.withSp mode u.sp with
      r0 := u.r0, r1 := u.r1, r2 := u.r2, r3 := u.r3, r4 := u.r4, r5 := u.r5, pc := u.pc }
    ps := merge 0o417 ((if u.si then 0o400 else 0) ||| u.codes.setWidth 16) s.ps }

/-- The trap an unpredictable effect manifests itself as, if any: a reference that is made and fails as any does, an
instruction trap, a floating-point exception that meets all its requirements, with FER, FEC and FEA written, or a stack
overflow, for which the kernel stack must have been pushed below 400 (spec/60_exceptions.md R715); one that cannot be met does
not happen (R581 (b), log 34). `op` is the address of the op-code word. -/
def manifestTrap (op : Word) (mode : Mode) : Option UnpredictableTrap → M Unit
  | none => return
  | some (.vector i) => raiseTrap (unpredictableVector i)
  | some (.floating i) => do
    if fpTrapPossible (← get) (fpErrorOf i) then fpException op (fpErrorOf i) else return
  | some (.reference va false) => do let _ ← readWordIn mode va
  | some (.reference va true) => do
    let m ← translate mode va true
    if busAnswers (← get).cfg m.pa then return else throw (.abort .timeout)
  | some (.stackOverflow sp) =>
    if mode = .kernel ∧ sp.toNat < 0o400 then modify fun s => { s with pend := { s.pend with stkovf := true } } else return

/-- `effect unpredictable` of R581 (b): a free value decides everything (I31, log 34). -/
def effectUnpredictable (op : Word) : M Unit := do
  let u := Config.unpredictable (← nextFree)
  let mode := (← get).mode
  modify (applyUnpredictable u mode)
  manifestTrap op mode u.trap

/-- Any condition codes: the part of `results unpredictable` every instruction shares (R581 (a), I30, log 33). -/
def anyCodes : M Codes := do
  let k := Config.freeCodes (← nextFree)
  return { n := k.getLsbD 3, z := k.getLsbD 2, v := k.getLsbD 1, c := k.getLsbD 0 }

/-- A list of free bytes. -/
def anyBytes : Nat → M (List Byte)
  | 0 => return []
  | n + 1 => do
    let b := Config.freeByte (← nextFree)
    return b :: (← anyBytes n)

/-- The frame of a potentially suspendable instruction: reserved without the option (R580); unpredictable with PS<8> set
(R590). The body gets the address of the op-code word. -/
def cisInstr (body : Word → M Unit) : M Unit := do
  let s ← get
  let op := s.regs.pc - 2
  if s.cfg.cisPresent then
    if psSuspended s.ps then effectUnpredictable op else body op
  else raiseTrap vectorReserved

/-- The completion of a potentially suspendable instruction: its condition codes, and PS<8> cleared (R590). -/
def cisDone (wrotePs : Bool) (k : Codes) : M Unit := do
  setCodes wrotePs k
  modify fun s => { s with ps := merge 0o400 0 s.ps }

/-- The registers only the register form updates (R587, R588). -/
def CisForm.inRegisters (form : CisForm) (update : M Unit) : M Unit :=
  match form with
  | .register => update
  | .inLine => return

/-- Two words of a descriptor: first (even register, lower address) and second (R583, R641). -/
structure Desc where
  fst : Word
  snd : Word
  deriving DecidableEq, Repr

/-- `desc_reg(n)` of R583. -/
def descReg (even odd : Reg) : M Desc := do
  return { fst := ← readReg even, snd := ← readReg odd }

/-- `desc_mem(p)` of R583. -/
def descMem (p : Word) : M Desc := do
  return { fst := ← readWord p, snd := ← readWord (p + 2) }

/-- Set a register pair. -/
def writeDesc (even odd : Reg) (d : Desc) : M Unit := do
  writeReg even d.fst
  writeReg odd d.snd

/-- `cis_char` of R582. -/
def withChar (op : Word) (w : Word) (k : Byte → M Unit) : M Unit :=
  if highByte w = 0 then k (lowByte w) else effectUnpredictable op

/-- Character `i` of a string (R583). -/
def Desc.chr (d : Desc) (i : Nat) : M Byte := readByte (d.snd + BitVec.ofNat 16 i)

/-- Read bytes in the order given. -/
def readBytes : List Word → M (List Byte)
  | [] => return []
  | a :: rest => do
    let b ← readByte a
    return b :: (← readBytes rest)

/-- Write bytes in ascending address order from an address (R591); the answer says whether one of them was the PS. -/
def storeBytes (a : Word) : List Byte → M Bool
  | [] => return false
  | b :: rest => do
    let here ← writeByte a b
    let later ← storeBytes (a + 1) rest
    return here || later

/-- A reference to a byte would be answered. -/
def State.readable (s : State) (a : Word) : Bool :=
  match translate s.mode a false s with
  | .error _ _ => false
  | .ok m _ =>
    match readCycle m.pa s with
    | .ok _ _ => true
    | .error _ _ => false

/-- The mapped table at an address can be read whole (R584, R602): a reference to each of its 256 bytes would succeed. -/
def State.tableReadable (s : State) (table : Word) : Bool := (byteAddrs table 256).all s.readable

/-- A table that is not wholly in readable memory makes the effect unpredictable (R584, R602). -/
def withTable (op : Word) (table : Word) (k : M Unit) : M Unit := do
  if (← get).tableReadable table then k else effectUnpredictable op

end Sys2Proof.Machine
end

