-- ==== Sys2Proof/Machine/CisCharacter.lean ====
section
/-! DEFINITION. L2Dr, L3Dr and the nine character instructions in both forms (spec/48_cis_character.md R585 to R611). -/

namespace Sys2Proof.Machine

/-- One step of @(Rr)+: the pointer at `a`, then the descriptor it points at (R585). -/
def loadDesc (a : Word) : M Desc := do
  descMem (← readWord a)

/-- L2Dr, R585: the autoincrements come before the loads, which win (D46); no code changes, against spec/10_state.md R33
(DEDUCED, log 55). -/
def execL2d (r : Reg) (s : State) : Host.Outcome State Fault Refusal :=
  runInstr (do
    if (← get).cfg.cisPresent then
      let a ← readReg r
      let alpha ← loadDesc a
      let beta ← loadDesc (a + 2)
      writeReg r (a + 4)
      writeDesc .r0 .r1 alpha
      writeDesc .r2 .r3 beta
    else raiseTrap vectorReserved) s

/-- L3Dr, R586; no code changes, against spec/10_state.md R33 (DEDUCED, log 55). -/
def execL3d (r : Reg) (s : State) : Host.Outcome State Fault Refusal :=
  runInstr (do
    if (← get).cfg.cisPresent then
      let a ← readReg r
      let alpha ← loadDesc a
      let beta ← loadDesc (a + 2)
      let gamma ← loadDesc (a + 4)
      writeReg r (a + 6)
      writeDesc .r0 .r1 alpha
      writeDesc .r2 .r3 beta
      writeDesc .r4 .r5 gamma
    else raiseTrap vectorReserved) s

/-! Moves. -/

/-- The operands of a move: both strings, the word that holds the fill character, the translation table (R599). -/
structure MoveOps where
  src : Desc
  dst : Desc
  fill : Word
  table : Word
  deriving DecidableEq, Repr

/-- The operands of a move; only MOVTC has a table (R599, R588). -/
def moveOps (form : CisForm) (translated : Bool) : M MoveOps := do
  match form with
  | .register =>
    let src ← descReg .r0 .r1
    let dst ← descReg .r2 .r3
    return { src := src, dst := dst, fill := ← readReg .r4, table := ← readReg .r5 }
  | .inLine =>
    let ps ← fetchWord
    let pd ← fetchWord
    let fill ← fetchWord
    let table ← if translated then fetchWord else pure 0
    let src ← descMem ps
    let dst ← descMem pd
    return { src := src, dst := dst, fill := fill, table := table }

/-- The number of characters moved (R599). -/
def MoveOps.count (m : MoveOps) : Nat := min m.src.fst.toNat m.dst.fst.toNat

/-- How many fill characters the destination takes. -/
def MoveOps.padding (m : MoveOps) : Nat := m.dst.fst.toNat - m.count

/-- The end of a move: the registers, then the codes (R599); `k` is those of CMP src.len, dst.len, or free. -/
def moveDone (form : CisForm) (m : MoveOps) (wrotePs : Bool) (k : Codes) : M Unit := do
  form.inRegisters (do
    writeReg .r0 (m.src.fst - BitVec.ofNat 16 m.count)
    writeReg .r1 0
    writeReg .r2 0
    writeReg .r3 0)
  cisDone wrotePs k

/-- The condition codes of every move: CMP src.len, dst.len (R599). -/
def MoveOps.codes (m : MoveOps) : Codes := aluCmp m.src.fst m.dst.fst

/-- MOVC and MOVCI, R600. -/
def moveChar (form : CisForm) : M Unit :=
  cisInstr fun op => do
    let m ← moveOps form false
    withChar op m.fill fun fill => do
      let t ← readBytes (byteAddrs m.src.snd m.count)
      let wrotePs ← storeBytes m.dst.snd (t ++ List.replicate m.padding fill)
      moveDone form m wrotePs m.codes

/-- MOVRC and MOVRCI, R601: justified at the least significant end. -/
def moveReverse (form : CisForm) : M Unit :=
  cisInstr fun op => do
    let m ← moveOps form false
    withChar op m.fill fun fill => do
      let skip := m.src.fst - BitVec.ofNat 16 m.count
      let t ← readBytes (byteAddrs (m.src.snd + skip) m.count)
      let wrotePs ← storeBytes m.dst.snd (List.replicate m.padding fill ++ t)
      moveDone form m wrotePs m.codes

/-- Store the translations of characters: each is looked up just before its store (R602). -/
def storeTranslated (table a : Word) : List Byte → M Bool
  | [] => return false
  | c :: rest => do
    let here ← writeByte a (← readByte (table + c.setWidth 16))
    let later ← storeTranslated table (a + 1) rest
    return here || later

/-- MOVTC and MOVTCI, R602. -/
def moveTranslated (form : CisForm) : M Unit :=
  cisInstr fun op => do
    let m ← moveOps form true
    withChar op m.fill fun fill => withTable op m.table do
      let s ← get
      let clash := s.overlaps (byteAddrs m.dst.snd m.dst.fst.toNat) (byteAddrs m.table 256)
      let t ← readBytes (byteAddrs m.src.snd m.count)
      if clash then
        let wrotePs ← storeBytes m.dst.snd (← anyBytes m.dst.fst.toNat)
        moveDone form m wrotePs (← anyCodes)
      else
        let moved ← storeTranslated m.table m.dst.snd t
        let filled ← storeBytes (m.dst.snd + BitVec.ofNat 16 m.count) (List.replicate m.padding fill)
        moveDone form m (moved || filled) m.codes

/-- MOVC, R600. -/
def execMovc (s : State) : Host.Outcome State Fault Refusal := runInstr (moveChar .register) s

/-- MOVCI, R600. -/
def execMovci (s : State) : Host.Outcome State Fault Refusal := runInstr (moveChar .inLine) s

/-- MOVRC, R601. -/
def execMovrc (s : State) : Host.Outcome State Fault Refusal := runInstr (moveReverse .register) s

/-- MOVRCI, R601. -/
def execMovrci (s : State) : Host.Outcome State Fault Refusal := runInstr (moveReverse .inLine) s

/-- MOVTC, R602. -/
def execMovtc (s : State) : Host.Outcome State Fault Refusal := runInstr (moveTranslated .register) s

/-- MOVTCI, R602. -/
def execMovtci (s : State) : Host.Outcome State Fault Refusal := runInstr (moveTranslated .inLine) s

/-! Searches. -/

/-- The least index from `i` on, among the bytes at the addresses, at which `stop` holds; the number past the last if none.
Bytes are read in ascending order and no further (R605). -/
def searchFrom (stop : Byte → M Bool) (i : Nat) : List Word → M Nat
  | [] => return i
  | a :: rest => do
    if ← stop (← readByte a) then return i else searchFrom stop (i + 1) rest

/-- `search_result` of R604, in both forms. -/
def searchResult (src : Desc) (i : Nat) : M Unit := do
  let r0 := src.fst - BitVec.ofNat 16 i
  writeDesc .r0 .r1 { fst := r0, snd := src.snd + BitVec.ofNat 16 i }
  cisDone false (aluTst r0)

/-- Search a string for the first byte at which `stop` holds. -/
def searchFor (src : Desc) (stop : Byte → M Bool) : M Unit := do
  searchResult src (← searchFrom stop 0 (byteAddrs src.snd src.fst.toNat))

/-- The operands of LOCC and SKPC: the string and the word that holds the character (R605). -/
def charSearchOps (form : CisForm) : M (Desc × Word) := do
  match form with
  | .register =>
    let src ← descReg .r0 .r1
    return (src, ← readReg .r4)
  | .inLine =>
    let p ← fetchWord
    let w ← fetchWord
    return (← descMem p, w)

/-- LOCC and LOCCI, R605. -/
def locateChar (form : CisForm) : M Unit :=
  cisInstr fun op => do
    let (src, w) ← charSearchOps form
    withChar op w fun c => searchFor src fun b => return b == c

/-- SKPC and SKPCI, R606. -/
def skipChar (form : CisForm) : M Unit :=
  cisInstr fun op => do
    let (src, w) ← charSearchOps form
    withChar op w fun c => searchFor src fun b => return b != c

/-- Two descriptors: a string and a second string or a character set (R607, R611). -/
def twoDescs (form : CisForm) (even odd : Reg) : M (Desc × Desc) := do
  match form with
  | .register =>
    let a ← descReg .r0 .r1
    return (a, ← descReg even odd)
  | .inLine =>
    let p ← fetchWord
    let q ← fetchWord
    let a ← descMem p
    return (a, ← descMem q)

/-- `cset` of R584 and its readable table. -/
def withSet (op : Word) (d : Desc) (k : Byte → Word → M Unit) : M Unit :=
  if highByte d.fst = 0 then withTable op d.snd (k (lowByte d.fst) d.snd) else effectUnpredictable op

/-- `in_set` of R584. -/
def inSet (mask : Byte) (table : Word) (c : Byte) : M Bool := do
  return ((← readByte (table + c.setWidth 16)) &&& mask) != 0

/-- SCANC and SCANCI, R607. -/
def scanSet (form : CisForm) : M Unit :=
  cisInstr fun op => do
    let (src, set) ← twoDescs form .r4 .r5
    withSet op set fun mask table => searchFor src (inSet mask table)

/-- SPANC and SPANCI, R608. -/
def spanSet (form : CisForm) : M Unit :=
  cisInstr fun op => do
    let (src, set) ← twoDescs form .r4 .r5
    withSet op set fun mask table => searchFor src fun c => do return !(← inSet mask table c)

/-- LOCC, R605. -/
def execLocc (s : State) : Host.Outcome State Fault Refusal := runInstr (locateChar .register) s

/-- LOCCI, R605. -/
def execLocci (s : State) : Host.Outcome State Fault Refusal := runInstr (locateChar .inLine) s

/-- SKPC, R606. -/
def execSkpc (s : State) : Host.Outcome State Fault Refusal := runInstr (skipChar .register) s

/-- SKPCI, R606. -/
def execSkpci (s : State) : Host.Outcome State Fault Refusal := runInstr (skipChar .inLine) s

/-- SCANC, R607. -/
def execScanc (s : State) : Host.Outcome State Fault Refusal := runInstr (scanSet .register) s

/-- SCANCI, R607. -/
def execScanci (s : State) : Host.Outcome State Fault Refusal := runInstr (scanSet .inLine) s

/-- SPANC, R608. -/
def execSpanc (s : State) : Host.Outcome State Fault Refusal := runInstr (spanSet .register) s

/-- SPANCI, R608. -/
def execSpanci (s : State) : Host.Outcome State Fault Refusal := runInstr (spanSet .inLine) s

/-! Compare and match. -/

/-- Character `i` of a string extended with the fill character (R610). -/
def Desc.chrOr (d : Desc) (fill : Byte) (i : Nat) : M Byte :=
  if i < d.fst.toNat then d.chr i else return fill

/-- The first index from `i` on, among `fuel` many, at which the extended strings differ, with the two characters (R610). At
each index the character of the first string is read first; R610 gives no order (DESIGN CHOICE, log 56). -/
def compareFrom (s1 s2 : Desc) (fill : Byte) : Nat → Nat → M (Nat × Option (Byte × Byte))
  | 0, i => return (i, none)
  | fuel + 1, i => do
    let c1 ← s1.chrOr fill i
    let c2 ← s2.chrOr fill i
    if c1 = c2 then compareFrom s1 s2 fill fuel (i + 1) else return (i, some (c1, c2))

/-- The codes of CMPC: of CMPB on the unequal characters, or equality (R610). -/
def compareCodes : Option (Byte × Byte) → Codes
  | some (c1, c2) => aluCmp c1 c2
  | none => { n := false, z := true, v := false, c := false }

/-- The part of a string from index `i` on (R610). -/
def Desc.dropFront (d : Desc) (i : Nat) : Desc :=
  let j := BitVec.ofNat 16 (min i d.fst.toNat)
  { fst := d.fst - j, snd := d.snd + j }

/-- The operands of CMPC (R610). -/
def compareOps (form : CisForm) : M (Desc × Desc × Word) := do
  match form with
  | .register =>
    let a ← descReg .r0 .r1
    let b ← descReg .r2 .r3
    return (a, b, ← readReg .r4)
  | .inLine =>
    let p ← fetchWord
    let q ← fetchWord
    let w ← fetchWord
    let a ← descMem p
    return (a, ← descMem q, w)

/-- CMPC and CMPCI, R610. -/
def compareChar (form : CisForm) : M Unit :=
  cisInstr fun op => do
    let (s1, s2, w) ← compareOps form
    withChar op w fun fill => do
      let (i, unequal) ← compareFrom s1 s2 fill (max s1.fst.toNat s2.fst.toNat) 0
      form.inRegisters (do
        writeDesc .r0 .r1 (s1.dropFront i)
        writeDesc .r2 .r3 (s2.dropFront i))
      cisDone false (compareCodes unequal)

/-- The object matches the source at index `i`, from its character `j` on, `fuel` of them left (R611). Of each pair the
source's byte is read first, and a trial ends at its first mismatch; R611 gives no order (DESIGN CHOICE, log 56). -/
def matchesAt (src obj : Desc) (i : Nat) : Nat → Nat → M Bool
  | 0, _ => return true
  | fuel + 1, j => do
    let c ← src.chr (i + j)
    if c = (← obj.chr j) then matchesAt src obj i fuel (j + 1) else return false

/-- The least index from `i` on, among `fuel` many, at which the object matches, if any (R611). -/
def matchFrom (src obj : Desc) : Nat → Nat → M (Option Nat)
  | 0, _ => return none
  | fuel + 1, i => do
    if ← matchesAt src obj i obj.fst.toNat 0 then return some i else matchFrom src obj fuel (i + 1)

/-- MATC and MATCI, R611. -/
def matchChar (form : CisForm) : M Unit :=
  cisInstr fun _ => do
    let (src, obj) ← twoDescs form .r2 .r3
    let tries := if src.fst = 0 then 0 else src.fst.toNat + 1 - obj.fst.toNat
    let found ← matchFrom src obj tries 0
    searchResult src (found.getD src.fst.toNat)

/-- CMPC, R610. -/
def execCmpc (s : State) : Host.Outcome State Fault Refusal := runInstr (compareChar .register) s

/-- CMPCI, R610. -/
def execCmpci (s : State) : Host.Outcome State Fault Refusal := runInstr (compareChar .inLine) s

/-- MATC, R611. -/
def execMatc (s : State) : Host.Outcome State Fault Refusal := runInstr (matchChar .register) s

/-- MATCI, R611. -/
def execMatci (s : State) : Host.Outcome State Fault Refusal := runInstr (matchChar .inLine) s

end Sys2Proof.Machine
end

