-- ==== Sys2Proof/Machine/CisDecimalData.lean ====
section
/-! DEFINITION. Decimal strings as data: their eight layouts, reading a value from bytes and laying a value out in bytes
(spec/49_cis_decimal.md R640 to R646). -/

namespace Sys2Proof.Machine

/-- The eight data types, in the order of their codes (R641). -/
inductive DecType where
  | signedZoned
  | unsignedZoned
  | trailingOverpunched
  | leadingOverpunched
  | trailingSeparate
  | leadingSeparate
  | signedPacked
  | unsignedPacked
  deriving DecidableEq, Repr

/-- The two classes; an instruction's mnemonic fixes the class of each operand (R640). -/
inductive DecClass where
  | numeric
  | packed
  deriving DecidableEq, Repr

/-- The type a three-bit code names (R641). -/
def DecType.ofCode (b : BitVec 3) : DecType :=
  match b.toNat with
  | 0 => .signedZoned
  | 1 => .unsignedZoned
  | 2 => .trailingOverpunched
  | 3 => .leadingOverpunched
  | 4 => .trailingSeparate
  | 5 => .leadingSeparate
  | 6 => .signedPacked
  | _ => .unsignedPacked

/-- The class of a type (R640). -/
def DecType.cls : DecType → DecClass
  | .signedPacked => .packed
  | .unsignedPacked => .packed
  | .signedZoned => .numeric
  | .unsignedZoned => .numeric
  | .trailingOverpunched => .numeric
  | .leadingOverpunched => .numeric
  | .trailingSeparate => .numeric
  | .leadingSeparate => .numeric

/-- The types that can show a negative value (R646). -/
def DecType.signed : DecType → Bool
  | .unsignedZoned => false
  | .unsignedPacked => false
  | .signedZoned => true
  | .trailingOverpunched => true
  | .leadingOverpunched => true
  | .trailingSeparate => true
  | .leadingSeparate => true
  | .signedPacked => true

/-- A decoded decimal descriptor: type, number of digits, address (R641). -/
structure Dec where
  type : DecType
  len : Nat
  adr : Word
  deriving DecidableEq, Repr

/-- `ddesc` of R641: none where the effect is unpredictable. -/
def ddesc (w0 w1 : Word) (cls : DecClass) : Option Dec :=
  let d : Dec := { type := DecType.ofCode (w0.extractLsb' 12 3), len := (w0.extractLsb' 0 5).toNat, adr := w1 }
  if w0 &&& 0o107740 = 0 ∧ d.type.cls = cls then some d else none

/-- How many bytes a string of a type with `n` digits occupies (R642 to R645). -/
def DecType.size (t : DecType) (n : Nat) : Nat :=
  match t with
  | .signedZoned => n
  | .unsignedZoned => n
  | .trailingOverpunched => n
  | .leadingOverpunched => n
  | .trailingSeparate => n + 1
  | .leadingSeparate => n + 1
  | .signedPacked => n / 2 + 1
  | .unsignedPacked => n / 2 + 1

/-- The offset of the byte that holds digit `j`, counted from the least significant, of `n` digits (R642 to R645). -/
def DecType.digitOffset (t : DecType) (n j : Nat) : Nat :=
  match t with
  | .signedZoned => n - 1 - j
  | .unsignedZoned => n - 1 - j
  | .trailingOverpunched => n - 1 - j
  | .leadingOverpunched => n - 1 - j
  | .trailingSeparate => n - 1 - j
  | .leadingSeparate => n - j
  | .signedPacked => n / 2 - (j + 1) / 2
  | .unsignedPacked => n / 2 - (j + 1) / 2

/-! Reading. -/

/-- Bits <7:4>. -/
def highNibble (b : Byte) : Nat := b.toNat / 16

/-- Bits <3:0>. -/
def lowNibble (b : Byte) : Nat := b.toNat % 16

/-- The value of digits, most significant first; none if one is not 0 to 9 (R640). -/
def digitsValue (acc : Nat) : List Nat → Option Nat
  | [] => some acc
  | d :: rest => if d ≤ 9 then digitsValue (acc * 10 + d) rest else none

/-- A magnitude with a sign (R640). -/
def signedValue (neg : Bool) (mag : Nat) : Int := if neg then -(mag : Int) else mag

/-- The sign in the high nibble of a zoned sign byte (R643). -/
def zonedSign (b : Byte) : Option Bool :=
  if highNibble b = 3 then some false else if highNibble b = 7 then some true else none

/-- The sign and digit of an overpunched byte, preferred or alternate (R644). -/
def overpunched (b : Byte) : Option (Bool × Nat) :=
  let x := b.toNat
  if x = 0x7b ∨ x = 0x5b ∨ x = 0x3f then some (false, 0)
  else if x = 0x7d ∨ x = 0x5d ∨ x = 0x21 ∨ x = 0x3a then some (true, 0)
  else if 0x30 ≤ x ∧ x ≤ 0x39 then some (false, x - 0x30)
  else if 0x41 ≤ x ∧ x ≤ 0x49 then some (false, x - 0x40)
  else if 0x4a ≤ x ∧ x ≤ 0x52 then some (true, x - 0x49)
  else none

/-- The sign of a separate sign byte (R645). -/
def separateSign (b : Byte) : Option Bool :=
  if b = 0x2b ∨ b = 0x20 then some false else if b = 0x2d then some true else none

/-- The sign of a packed sign nibble (R642). -/
def packedSign (signed : Bool) (n : Nat) : Option Bool :=
  if signed then
    if n = 0xc ∨ n = 0xa ∨ n = 0xe ∨ n = 0xf then some false else if n = 0xd ∨ n = 0xb then some true else none
  else if n = 0xf then some false else none

/-- The value of packed nibbles, the sign last; an even number of digits has a zero before them (R642). -/
def packedValue (signed : Bool) (n : Nat) (nibbles : List Nat) : Option Int := do
  let digits ← digitsValue 0 (nibbles.take (nibbles.length - 1))
  let neg ← packedSign signed (nibbles.getLastD 0)
  if n % 2 = 0 ∧ nibbles.headD 0 ≠ 0 then none else some (signedValue neg digits)

/-- The value of a string whose sign shares its byte with a digit: `sign` splits that byte, the others are digits. -/
def sharedSign (sign : Byte → Option (Bool × Nat)) (before : List Byte) (b : Byte) (after : List Byte) : Option Int := do
  let (neg, d) ← sign b
  let mag ← digitsValue 0 (before.map lowNibble ++ d :: after.map lowNibble)
  return signedValue neg mag

/-- `dec_read` of R646 on the bytes of a string; none when they are no valid representation. -/
def decValue (t : DecType) (n : Nat) (bytes : List Byte) : Option Int :=
  match t with
  | .signedZoned =>
    match bytes.getLast? with
    | none => some 0
    | some b => sharedSign (fun b => (zonedSign b).map fun neg => (neg, lowNibble b)) bytes.dropLast b []
  | .unsignedZoned => (digitsValue 0 (bytes.map lowNibble)).map fun m => (m : Int)
  | .trailingOverpunched =>
    match bytes.getLast? with
    | none => some 0
    | some b => sharedSign overpunched bytes.dropLast b []
  | .leadingOverpunched =>
    match bytes with
    | [] => some 0
    | b :: rest => sharedSign overpunched [] b rest
  | .trailingSeparate => do
    let neg ← separateSign (bytes.getLastD 0)
    return signedValue neg (← digitsValue 0 (bytes.dropLast.map lowNibble))
  | .leadingSeparate => do
    let neg ← separateSign (bytes.headD 0)
    return signedValue neg (← digitsValue 0 (bytes.tail.map lowNibble))
  | .signedPacked => packedValue true n (bytes.flatMap fun b => [highNibble b, lowNibble b])
  | .unsignedPacked => packedValue false n (bytes.flatMap fun b => [highNibble b, lowNibble b])

/-! Writing. -/

/-- The last `n` decimal digits of a number, most significant first. -/
def digitsOf : Nat → Nat → List Nat
  | 0, _ => []
  | n + 1, m => digitsOf n (m / 10) ++ [m % 10]

/-- A digit byte of a destination: 0011 in its high nibble (R643). -/
def digitByte (d : Nat) : Byte := BitVec.ofNat 8 (0x30 + d)

/-- The preferred overpunched byte (R644). -/
def overpunch (neg : Bool) (d : Nat) : Byte :=
  if neg then (if d = 0 then 0x7d else BitVec.ofNat 8 (0x49 + d))
  else if d = 0 then 0x7b else BitVec.ofNat 8 (0x40 + d)

/-- Nibbles packed two to a byte, the high one first (R642). -/
def packNibbles : List Nat → List Byte
  | hi :: lo :: rest => BitVec.ofNat 8 (hi * 16 + lo) :: packNibbles rest
  | [_] => []
  | [] => []

/-- The bytes of a packed destination: its digits and sign nibble, a zero before an even number of digits (R642). -/
def packedBytes (digits : List Nat) (sign : Nat) : List Byte :=
  packNibbles ((if digits.length % 2 = 0 then [0] else []) ++ digits ++ [sign])

/-- The digit bytes, the last one replaced by its form with the sign. -/
def signLast (sign : Nat → Byte) (digits : List Nat) : List Byte :=
  match digits.getLast? with
  | none => []
  | some d => digits.dropLast.map digitByte ++ [sign d]

/-- The digit bytes, the first one replaced by its form with the sign. -/
def signFirst (sign : Nat → Byte) : List Nat → List Byte
  | [] => []
  | d :: rest => sign d :: rest.map digitByte

/-- The preferred layout of digits and a sign in a type (R642 to R646). -/
def decBytes (t : DecType) (digits : List Nat) (neg : Bool) : List Byte :=
  match t with
  | .signedZoned => signLast (fun d => BitVec.ofNat 8 ((if neg then 0x70 else 0x30) + d)) digits
  | .unsignedZoned => digits.map digitByte
  | .trailingOverpunched => signLast (overpunch neg) digits
  | .leadingOverpunched => signFirst (overpunch neg) digits
  | .trailingSeparate => digits.map digitByte ++ [if neg then 0x2d else 0x2b]
  | .leadingSeparate => (if neg then 0x2d else 0x2b) :: digits.map digitByte
  | .signedPacked => packedBytes digits (if neg then 0xd else 0xc)
  | .unsignedPacked => packedBytes digits 0xf

/-- What `dec_write` of R646 stores, and the codes it gives with C cleared (R649). -/
def decResult (t : DecType) (n : Nat) (v : Int) : List Byte × Codes :=
  let mag := v.natAbs % 10 ^ n
  let neg := decide (v < 0)
  (decBytes t (digitsOf n mag) neg,
   { n := neg && mag != 0 && t.signed, z := mag == 0, v := decide (10 ^ n ≤ v.natAbs), c := false })

/-- The magnitude of an arithmetic shift by powers of ten, rounded when it shifts right (R666). -/
def decShift (m : Nat) (count : Int) (round : Nat) : Nat :=
  match count with
  | .ofNat k => m * 10 ^ k
  | .negSucc k =>
    let shiftedOut := m / 10 ^ k % 10
    m / 10 ^ (k + 1) + if 10 ≤ shiftedOut + round then 1 else 0

end Sys2Proof.Machine
end

