-- ==== Sys2Proof/Machine/CisDecimal.lean ====
section
/-! DEFINITION. The sixteen decimal instructions in both forms (spec/49_cis_decimal.md R647 to R675). -/

namespace Sys2Proof.Machine

/-- A descriptor of a class; a reserved field or a type of the other class makes the effect unpredictable (R641). -/
def withDec (op : Word) (cls : DecClass) (d : Desc) (k : Dec → M Unit) : M Unit :=
  match ddesc d.fst d.snd cls with
  | some x => k x
  | none => effectUnpredictable op

/-- The addresses of a string's bytes (R641). -/
def Dec.addrs (d : Dec) : List Word := byteAddrs d.adr (d.type.size d.len)

/-- `dec_read` of R646: none when the results are unpredictable. The bytes are read in ascending address order; R646 gives no
order (DESIGN CHOICE, log 56). -/
def Dec.read (d : Dec) : M (Option Int) := do
  return decValue d.type d.len (← readBytes d.addrs)

/-- Where digit `j`, counted from the least significant, of a string lies. -/
def Dec.digitAddr (d : Dec) (j : Nat) : Word := d.adr + BitVec.ofNat 16 (d.type.digitOffset d.len j)

/-- All corresponding digits of two strings are in coincident bytes (R650). A string without digits has no corresponding ones,
so that an overlap with its sign byte alone is permitted (DESIGN CHOICE, log 32). -/
def State.coincide (s : State) (x y : Dec) : Bool :=
  (List.range (min x.len y.len)).all fun j => s.placeOf (x.digitAddr j) == s.placeOf (y.digitAddr j)

/-- The overlap rule of an instruction (R650). -/
inductive OverlapRule where
  /-- ADD and SUB: corresponding digits may coincide. -/
  | coincident
  /-- The others: none. -/
  | never
  deriving DecidableEq, Repr

/-- A source overlaps the destination in a way its instruction forbids (R650). -/
def State.forbiddenOverlap (s : State) (rule : OverlapRule) (src dst : Dec) : Bool :=
  s.overlaps src.addrs dst.addrs &&
    match rule with
    | .coincident => !s.coincide src dst
    | .never => true

/-- What an instruction that stores a string has computed. -/
inductive DecOutcome where
  | value (v : Int)
  /-- DIVP with a zero divisor (R663). -/
  | divideByZero
  /-- `results unpredictable` (R581 (a)). -/
  | unpredictable
  deriving DecidableEq, Repr

/-- Store an outcome in a destination string; the answer says whether the PS was written, and which codes to set (R646,
R649, R663). -/
def Dec.deliver (d : Dec) : DecOutcome → M (Bool × Codes)
  | .value v => do
    let (bytes, k) := decResult d.type d.len v
    return (← storeBytes d.adr bytes, k)
  | .divideByZero => do
    let wrotePs ← storeBytes d.adr (← anyBytes (d.type.size d.len))
    let k ← anyCodes
    return (wrotePs, { k with v := true, c := true })
  | .unpredictable => do
    let wrotePs ← storeBytes d.adr (← anyBytes (d.type.size d.len))
    return (wrotePs, ← anyCodes)

/-- Clear registers: the source descriptors of a register form (R648). -/
def clearRegs : List Reg → M Unit
  | [] => return
  | r :: rest => do
    writeReg r 0
    clearRegs rest

/-- The end of a decimal instruction: the codes, PS<8>, and the registers the register form clears (R648, R649). -/
def decDone (form : CisForm) (cleared : List Reg) (wrotePs : Bool) (k : Codes) : M Unit := do
  form.inRegisters (clearRegs cleared)
  cisDone wrotePs k

/-- Three descriptors: R0-R1, R2-R3, R4-R5, or through three pointers in that order (R648, D48). -/
def threeDescs (form : CisForm) : M (Desc × Desc × Desc) := do
  match form with
  | .register =>
    let a ← descReg .r0 .r1
    let b ← descReg .r2 .r3
    return (a, b, ← descReg .r4 .r5)
  | .inLine =>
    let p ← fetchWord
    let q ← fetchWord
    let r ← fetchWord
    let a ← descMem p
    let b ← descMem q
    return (a, b, ← descMem r)

/-- Two descriptors: R0-R1 and R2-R3, or through two pointers (R648). -/
def descPair (form : CisForm) : M (Desc × Desc) := do
  match form with
  | .register =>
    let a ← descReg .r0 .r1
    return (a, ← descReg .r2 .r3)
  | .inLine =>
    let p ← fetchWord
    let q ← fetchWord
    let a ← descMem p
    return (a, ← descMem q)

/-- ADD, SUB, MUL and DIV: `f` of source 1 and source 2 goes to the destination (R660 to R663). -/
def decArith (form : CisForm) (cls : DecClass) (rule : OverlapRule) (f : Int → Int → DecOutcome) : M Unit :=
  cisInstr fun op => do
    let (a, b, c) ← threeDescs form
    withDec op cls a fun s1 => withDec op cls b fun s2 => withDec op cls c fun d => do
      let v1 ← s1.read
      let v2 ← s2.read
      let s ← get
      let clash := s.forbiddenOverlap rule s1 d || s.forbiddenOverlap rule s2 d
      let outcome := match clash, v1, v2 with
        | false, some x, some y => f x y
        | _, _, _ => .unpredictable
      let (wrotePs, k) ← d.deliver outcome
      decDone form [.r0, .r1, .r2, .r3] wrotePs k

/-- dst <- src2 + src1 (R660). -/
def decAdd (v1 v2 : Int) : DecOutcome := .value (v2 + v1)

/-- dst <- src2 - src1 (R661). -/
def decSub (v1 v2 : Int) : DecOutcome := .value (v2 - v1)

/-- dst <- src2 * src1 (R662). -/
def decMul (v1 v2 : Int) : DecOutcome := .value (v2 * v1)

/-- dst <- src2 / src1, truncated toward zero (R663). -/
def decDiv (v1 v2 : Int) : DecOutcome := if v1 = 0 then .divideByZero else .value (v2.tdiv v1)

/-- CMPN and CMPP, R664: the codes are those of the comparison, free if a source is invalid. -/
def decCompare (form : CisForm) (cls : DecClass) : M Unit :=
  cisInstr fun op => do
    let (a, b) ← descPair form
    withDec op cls a fun s1 => withDec op cls b fun s2 => do
      match (← s1.read), (← s2.read) with
      | some v1, some v2 =>
        decDone form [.r0, .r1, .r2, .r3] false { n := decide (v1 < v2), z := v1 == v2, v := false, c := false }
      | _, _ => decDone form [.r0, .r1, .r2, .r3] false (← anyCodes)

/-- The operands of ASHN and ASHP: source, destination, shift word (R666). -/
def shiftOps (form : CisForm) : M (Desc × Desc × Word) := do
  match form with
  | .register =>
    let a ← descReg .r0 .r1
    let b ← descReg .r2 .r3
    return (a, b, ← readReg .r4)
  | .inLine =>
    let p ← fetchWord
    let q ← fetchWord
    let w ← fetchWord
    let a ← descMem p
    return (a, ← descMem q, w)

/-- ASHN and ASHP, R666. -/
def decShiftInstr (form : CisForm) (cls : DecClass) : M Unit :=
  cisInstr fun op => do
    let (a, b, w) ← shiftOps form
    if w &&& 0o170000 = 0 then
      withDec op cls a fun src => withDec op cls b fun d => do
        let v ← src.read
        let s ← get
        let round := (w.extractLsb' 8 4).toNat
        let outcome := match v with
          | some v =>
            if round ≤ 9 ∧ s.forbiddenOverlap .never src d = false then
              .value (signedValue (decide (v < 0)) (decShift v.natAbs (w.extractLsb' 0 8).toInt round))
            else .unpredictable
          | none => .unpredictable
        let (wrotePs, k) ← d.deliver outcome
        decDone form [.r0, .r1, .r4] wrotePs k
    else effectUnpredictable op

/-- CVTNP and CVTPN: from one class to the other (R674, R675). -/
def decConvert (form : CisForm) (fromCls toCls : DecClass) : M Unit :=
  cisInstr fun op => do
    let (a, b) ← descPair form
    withDec op fromCls a fun src => withDec op toCls b fun d => do
      let v ← src.read
      let s ← get
      let outcome := match s.forbiddenOverlap .never src d, v with
        | false, some v => .value v
        | _, _ => .unpredictable
      let (wrotePs, k) ← d.deliver outcome
      decDone form [.r0, .r1] wrotePs k

/-! Long integers. -/

/-- A long integer as two words, the high one first. -/
structure Long where
  hi : Word
  lo : Word
  deriving DecidableEq, Repr

/-- The 32-bit pattern of a long integer (R647). -/
def Long.bits (x : Long) : BitVec 32 := x.hi ++ x.lo

/-- The words of a 32-bit pattern (R647). -/
def Long.ofBits (x : BitVec 32) : Long := { hi := x.extractLsb' 16 16, lo := x.extractLsb' 0 16 }

/-- `put_long_reg` and `put_long_mem` of R647: the low word lies lower in memory. -/
def putLong (form : CisForm) (p : Word) (x : Long) : M Bool := do
  match form with
  | .register =>
    writeReg .r2 x.hi
    writeReg .r3 x.lo
    return false
  | .inLine =>
    let first ← writeWord p x.lo
    let second ← writeWord (p + 2) x.hi
    return first || second

/-- The long integer and the codes a value converts to (R670). -/
def longResult (v : Int) : Long × Codes :=
  let x := BitVec.ofInt 32 v
  (Long.ofBits x,
   { n := x.msb, z := x == 0, v := decide (x.toInt ≠ v), c := decide (v < 0) && x != 0 })

/-- The operands of CVTNL and CVTPL: the source descriptor, and the pointer to the destination of the in-line form. -/
def toLongOps (form : CisForm) : M (Desc × Word) := do
  match form with
  | .register => return (← descReg .r0 .r1, 0)
  | .inLine =>
    let p ← fetchWord
    let q ← fetchWord
    return (← descMem p, q)

/-- CVTNL and CVTPL, R670: both words of the long integer and the codes are free if the source is invalid. -/
def decToLong (form : CisForm) (cls : DecClass) : M Unit :=
  cisInstr fun op => do
    let (a, q) ← toLongOps form
    withDec op cls a fun src => do
      match (← src.read) with
      | some v =>
        let (x, k) := longResult v
        decDone form [.r0, .r1] (← putLong form q x) k
      | none =>
        let hi := Config.freeWord (← nextFree)
        let lo := Config.freeWord (← nextFree)
        let wrotePs ← putLong form q { hi := hi, lo := lo }
        decDone form [.r0, .r1] wrotePs (← anyCodes)

/-- The operands of CVTLN and CVTLP: the destination descriptor and the long integer, its low word read first (R647,
R672). -/
def fromLongOps (form : CisForm) : M (Desc × Long) := do
  match form with
  | .register =>
    let d ← descReg .r0 .r1
    let x ← descReg .r2 .r3
    return (d, { hi := x.fst, lo := x.snd })
  | .inLine =>
    let p ← fetchWord
    let q ← fetchWord
    let d ← descMem p
    let x ← descMem q
    return (d, { hi := x.snd, lo := x.fst })

/-- CVTLN and CVTLP, R672. -/
def decFromLong (form : CisForm) (cls : DecClass) : M Unit :=
  cisInstr fun op => do
    let (a, x) ← fromLongOps form
    withDec op cls a fun d => do
      let (wrotePs, k) ← d.deliver (.value x.bits.toInt)
      decDone form [.r2, .r3] wrotePs k

/-! The instructions. -/

/-- ADDN, R660. -/
def execAddn (s : State) : Host.Outcome State Fault Refusal := runInstr (decArith .register .numeric .coincident decAdd) s

/-- ADDNI, R660. -/
def execAddni (s : State) : Host.Outcome State Fault Refusal := runInstr (decArith .inLine .numeric .coincident decAdd) s

/-- SUBN, R661. -/
def execSubn (s : State) : Host.Outcome State Fault Refusal := runInstr (decArith .register .numeric .coincident decSub) s

/-- SUBNI, R661. -/
def execSubni (s : State) : Host.Outcome State Fault Refusal := runInstr (decArith .inLine .numeric .coincident decSub) s

/-- CMPN, R664. -/
def execCmpn (s : State) : Host.Outcome State Fault Refusal := runInstr (decCompare .register .numeric) s

/-- CMPNI, R664. -/
def execCmpni (s : State) : Host.Outcome State Fault Refusal := runInstr (decCompare .inLine .numeric) s

/-- ASHN, R666. -/
def execAshn (s : State) : Host.Outcome State Fault Refusal := runInstr (decShiftInstr .register .numeric) s

/-- ASHNI, R666. -/
def execAshni (s : State) : Host.Outcome State Fault Refusal := runInstr (decShiftInstr .inLine .numeric) s

/-- CVTNL, R670. -/
def execCvtnl (s : State) : Host.Outcome State Fault Refusal := runInstr (decToLong .register .numeric) s

/-- CVTNLI, R670. -/
def execCvtnli (s : State) : Host.Outcome State Fault Refusal := runInstr (decToLong .inLine .numeric) s

/-- CVTLN, R672. -/
def execCvtln (s : State) : Host.Outcome State Fault Refusal := runInstr (decFromLong .register .numeric) s

/-- CVTLNI, R672. -/
def execCvtlni (s : State) : Host.Outcome State Fault Refusal := runInstr (decFromLong .inLine .numeric) s

/-- ADDP, R660. -/
def execAddp (s : State) : Host.Outcome State Fault Refusal := runInstr (decArith .register .packed .coincident decAdd) s

/-- ADDPI, R660. -/
def execAddpi (s : State) : Host.Outcome State Fault Refusal := runInstr (decArith .inLine .packed .coincident decAdd) s

/-- SUBP, R661. -/
def execSubp (s : State) : Host.Outcome State Fault Refusal := runInstr (decArith .register .packed .coincident decSub) s

/-- SUBPI, R661. -/
def execSubpi (s : State) : Host.Outcome State Fault Refusal := runInstr (decArith .inLine .packed .coincident decSub) s

/-- MULP, R662. -/
def execMulp (s : State) : Host.Outcome State Fault Refusal := runInstr (decArith .register .packed .never decMul) s

/-- MULPI, R662. -/
def execMulpi (s : State) : Host.Outcome State Fault Refusal := runInstr (decArith .inLine .packed .never decMul) s

/-- DIVP, R663. -/
def execDivp (s : State) : Host.Outcome State Fault Refusal := runInstr (decArith .register .packed .never decDiv) s

/-- DIVPI, R663. -/
def execDivpi (s : State) : Host.Outcome State Fault Refusal := runInstr (decArith .inLine .packed .never decDiv) s

/-- CMPP, R664. -/
def execCmpp (s : State) : Host.Outcome State Fault Refusal := runInstr (decCompare .register .packed) s

/-- CMPPI, R664. -/
def execCmppi (s : State) : Host.Outcome State Fault Refusal := runInstr (decCompare .inLine .packed) s

/-- ASHP, R666. -/
def execAshp (s : State) : Host.Outcome State Fault Refusal := runInstr (decShiftInstr .register .packed) s

/-- ASHPI, R666. -/
def execAshpi (s : State) : Host.Outcome State Fault Refusal := runInstr (decShiftInstr .inLine .packed) s

/-- CVTPL, R670. -/
def execCvtpl (s : State) : Host.Outcome State Fault Refusal := runInstr (decToLong .register .packed) s

/-- CVTPLI, R670. -/
def execCvtpli (s : State) : Host.Outcome State Fault Refusal := runInstr (decToLong .inLine .packed) s

/-- CVTLP, R672. -/
def execCvtlp (s : State) : Host.Outcome State Fault Refusal := runInstr (decFromLong .register .packed) s

/-- CVTLPI, R672. -/
def execCvtlpi (s : State) : Host.Outcome State Fault Refusal := runInstr (decFromLong .inLine .packed) s

/-- CVTNP, R674. -/
def execCvtnp (s : State) : Host.Outcome State Fault Refusal := runInstr (decConvert .register .numeric .packed) s

/-- CVTNPI, R674. -/
def execCvtnpi (s : State) : Host.Outcome State Fault Refusal := runInstr (decConvert .inLine .numeric .packed) s

/-- CVTPN, R675. -/
def execCvtpn (s : State) : Host.Outcome State Fault Refusal := runInstr (decConvert .register .packed .numeric) s

/-- CVTPNI, R675. -/
def execCvtpni (s : State) : Host.Outcome State Fault Refusal := runInstr (decConvert .inLine .packed .numeric) s

end Sys2Proof.Machine
end

