-- ==== Sys2Proof/Machine/ConditionCodes.lean ====
section
/-! DEFINITION. The condition-code operators (spec/45_misc_cc_mmu_ps.md R433, R440, R441). -/

namespace Sys2Proof.Machine

/-- `PS<3:0> <- PS<3:0> & ~mask` (R440). -/
def clearMask (mask : BitVec 4) : M Unit :=
  modify fun s => { s with ps := s.ps &&& ~~~mask.setWidth 16 }

/-- `PS<3:0> <- PS<3:0> | mask` (R441). -/
def setMask (mask : BitVec 4) : M Unit :=
  modify fun s => { s with ps := s.ps ||| mask.setWidth 16 }

/-- NOP, R433: the clear operator with no bit selected. -/
def execNop (s : State) : Host.Outcome State Fault Refusal :=
  runInstr (clearMask 0) s

/-- CLC, R440. -/
def execClc (s : State) : Host.Outcome State Fault Refusal :=
  runInstr (clearMask 1) s

/-- CLV, R440. -/
def execClv (s : State) : Host.Outcome State Fault Refusal :=
  runInstr (clearMask 2) s

/-- CLZ, R440. -/
def execClz (s : State) : Host.Outcome State Fault Refusal :=
  runInstr (clearMask 4) s

/-- CLN, R440. -/
def execCln (s : State) : Host.Outcome State Fault Refusal :=
  runInstr (clearMask 8) s

/-- CCC, R440. -/
def execCcc (s : State) : Host.Outcome State Fault Refusal :=
  runInstr (clearMask 15) s

/-- The clear group with any mask, R440. -/
def execClearCodes (mask : BitVec 4) (s : State) : Host.Outcome State Fault Refusal :=
  runInstr (clearMask mask) s

/-- SEC, R441. -/
def execSec (s : State) : Host.Outcome State Fault Refusal :=
  runInstr (setMask 1) s

/-- SEV, R441. -/
def execSev (s : State) : Host.Outcome State Fault Refusal :=
  runInstr (setMask 2) s

/-- SEZ, R441. -/
def execSez (s : State) : Host.Outcome State Fault Refusal :=
  runInstr (setMask 4) s

/-- SEN, R441. -/
def execSen (s : State) : Host.Outcome State Fault Refusal :=
  runInstr (setMask 8) s

/-- SCC, R441. -/
def execScc (s : State) : Host.Outcome State Fault Refusal :=
  runInstr (setMask 15) s

/-- The set group with any mask, R441. -/
def execSetCodes (mask : BitVec 4) (s : State) : Host.Outcome State Fault Refusal :=
  runInstr (setMask mask) s

end Sys2Proof.Machine
end

