-- ==== Sys2Proof/Machine/DoubleOperand.lean ====
section
/-! DEFINITION. The double-operand instructions (spec/42_double_operand.md R330 to R338): one definition each, over `doubleWord` and
`doubleByte`. -/

namespace Sys2Proof.Machine

/-- MOV, R331: the destination is written, not read. -/
def execMov (src dst : Operand) (s : State) : Host.Outcome State Fault Refusal :=
  runInstr (doubleWord src dst fun v l => do storeWord l (v, moveCodes (← codesNow) v)) s

/-- MOVB to its destination: a register takes the byte with its sign extended (R332). -/
def moveByte (dst : Operand) (b : Byte) (l : Loc) : M Unit := do
  let k := moveCodes (← codesNow) b
  if dst.mode = .register then
    writeReg dst.reg (signExtendByte b)
    setCodesOnly k
  else storeByte l (b, k)

/-- MOVB, R332. -/
def execMovb (src dst : Operand) (s : State) : Host.Outcome State Fault Refusal :=
  runInstr (doubleByte src dst (moveByte dst)) s

/-- CMP and BIT on words: the destination is read, nothing is written (R333, R334). -/
def compareWord (src dst : Operand) (f : Codes → Word → Word → Codes) : M Unit :=
  doubleWord src dst fun v l => do
    let d ← readLoc l
    setCodesOnly (f (← codesNow) v d)

/-- CMPB and BITB. -/
def compareByte (src dst : Operand) (f : Codes → Byte → Byte → Codes) : M Unit :=
  doubleByte src dst fun v l => do
    let d ← readLocByte l
    setCodesOnly (f (← codesNow) v d)

/-- CMP, R333. -/
def execCmp (src dst : Operand) (s : State) : Host.Outcome State Fault Refusal :=
  runInstr (compareWord src dst fun _ v d => aluCmp v d) s

/-- CMPB, R333. -/
def execCmpb (src dst : Operand) (s : State) : Host.Outcome State Fault Refusal :=
  runInstr (compareByte src dst fun _ v d => aluCmp v d) s

/-- BIT, R334. -/
def execBit (src dst : Operand) (s : State) : Host.Outcome State Fault Refusal :=
  runInstr (compareWord src dst aluBit) s

/-- BITB, R334. -/
def execBitb (src dst : Operand) (s : State) : Host.Outcome State Fault Refusal :=
  runInstr (compareByte src dst aluBit) s

/-- BIC, R335. -/
def execBic (src dst : Operand) (s : State) : Host.Outcome State Fault Refusal :=
  runInstr (doubleWord src dst fun v l => modifyWord l fun k d => aluBic k v d) s

/-- BICB, R335. -/
def execBicb (src dst : Operand) (s : State) : Host.Outcome State Fault Refusal :=
  runInstr (doubleByte src dst fun v l => modifyByte l fun k d => aluBic k v d) s

/-- BIS, R336. -/
def execBis (src dst : Operand) (s : State) : Host.Outcome State Fault Refusal :=
  runInstr (doubleWord src dst fun v l => modifyWord l fun k d => aluBis k v d) s

/-- BISB, R336. -/
def execBisb (src dst : Operand) (s : State) : Host.Outcome State Fault Refusal :=
  runInstr (doubleByte src dst fun v l => modifyByte l fun k d => aluBis k v d) s

/-- ADD, R337. -/
def execAdd (src dst : Operand) (s : State) : Host.Outcome State Fault Refusal :=
  runInstr (doubleWord src dst fun v l => modifyWord l fun _ d => aluAdd v d) s

/-- SUB, R338. -/
def execSub (src dst : Operand) (s : State) : Host.Outcome State Fault Refusal :=
  runInstr (doubleWord src dst fun v l => modifyWord l fun _ d => aluSub v d) s

end Sys2Proof.Machine
end

