-- ==== Sys2Proof/Machine/Eis.lean ====
section
/-! DEFINITION. The register-and-operand instructions MUL, DIV, ASH, ASHC and XOR (spec/42_double_operand.md R340 to R349). -/

namespace Sys2Proof.Machine

/-- `R v 1`: the register with the low bit of its number set (R340). -/
def oddOf : Reg → Reg
  | .r0 => .r1
  | .r1 => .r1
  | .r2 => .r3
  | .r3 => .r3
  | .r4 => .r5
  | .r5 => .r5
  | .sp => .pc
  | .pc => .pc

/-- The 32-bit number in `R` and `R v 1`, `R` the high half (R340). -/
def readPair (r : Reg) : M (BitVec 32) := do
  let hi ← readReg r
  let lo ← readReg (oddOf r)
  return hi ++ lo

/-- Write the halves of a pair, `R v 1` last, so that an odd register keeps the low half (R346, R347, R349). -/
def writePair (r : Reg) (hi lo : Word) : M Unit := do
  writeReg r hi
  writeReg (oddOf r) lo

/-- Bits <31:16>. -/
def highWord (x : BitVec 32) : Word := x.extractLsb' 16 16

/-- Bits <15:0>. -/
def lowWord (x : BitVec 32) : Word := x.extractLsb' 0 16

/-- MUL, R346: an even register takes the high half and its odd neighbour the low half; an odd register the low half. -/
def execMul (r : Reg) (src : Operand) (s : State) : Host.Outcome State Fault Refusal :=
  runInstr (do
    let v ← operandWord src
    let (p, k) := aluMul (← readReg r) v
    writePair r (highWord p) (lowWord p)
    setCodesOnly k) s

/-- DIV, R347: quotient to R, remainder to R v 1; both stay when the divisor is 0 or the quotient does not fit. An odd
register is both halves (D27, log 25). -/
def execDiv (r : Reg) (src : Operand) (s : State) : Host.Outcome State Fault Refusal :=
  runInstr (do
    let v ← operandWord src
    match aluDiv (← readPair r) v with
    | (some (q, m), k) =>
      writePair r q m
      setCodesOnly k
    | (none, k) => setCodesOnly k) s

/-- ASH, R348. -/
def execAsh (r : Reg) (src : Operand) (s : State) : Host.Outcome State Fault Refusal :=
  runInstr (do
    let v ← operandWord src
    let (x, k) := aluAsh (← readReg r) v
    writeReg r x
    setCodesOnly k) s

/-- ASHC, R349; an odd register is both halves and keeps the low half of the result (D30, log 25). -/
def execAshc (r : Reg) (src : Operand) (s : State) : Host.Outcome State Fault Refusal :=
  runInstr (do
    let v ← operandWord src
    let (x, k) := aluAsh (← readPair r) v
    writePair r (highWord x) (lowWord x)
    setCodesOnly k) s

/-- XOR, R345: the register is read after the destination field is evaluated (R262). -/
def execXor (r : Reg) (dst : Operand) (s : State) : Host.Outcome State Fault Refusal :=
  runInstr (do
    let l ← evalField 2 dst
    let v ← readReg r
    modifyWord l fun k d => aluXor k v d) s

end Sys2Proof.Machine
end

