-- ==== Sys2Proof/Machine/FloatingPoint.lean ====
section
/-! DEFINITION. The floating-point instructions (spec/47_fp_instructions.md): one definition each. -/

namespace Sys2Proof.Machine

/-- CFCC, R520. -/
def execCfcc (s : State) : Host.Outcome State Fault Refusal :=
  runInstr (
    fpInstr fun _ _ =>
      modify fun s => { s with ps := psWithCodes s.ps (psCodes s.fpp.fps) }) s

/-- SETF, R521. -/
def execSetf (s : State) : Host.Outcome State Fault Refusal :=
  runInstr (
    fpInstr fun _ _ => mergeFps 0o200 0) s

/-- SETD, R522. -/
def execSetd (s : State) : Host.Outcome State Fault Refusal :=
  runInstr (
    fpInstr fun _ _ => mergeFps 0o200 0o200) s

/-- SETI, R523. -/
def execSeti (s : State) : Host.Outcome State Fault Refusal :=
  runInstr (
    fpInstr fun _ _ => mergeFps 0o100 0) s

/-- SETL, R524. -/
def execSetl (s : State) : Host.Outcome State Fault Refusal :=
  runInstr (
    fpInstr fun _ _ => mergeFps 0o100 0o100) s

/-- The FPS bits LDFPS stores: 13, 12 and 4 do not exist (R525, D7, log 11). -/
def ldfpsMask : Word := 0o147757

/-- LDFPS, R525. -/
def execLdfps (src : Operand) (s : State) : Host.Outcome State Fault Refusal :=
  runInstr (
    fpInstr fun _ _ => do
      mergeFps 0o177777 ((← operandWord src) &&& ldfpsMask)) s

/-- STFPS, R526. -/
def execStfps (dst : Operand) (s : State) : Host.Outcome State Fault Refusal :=
  runInstr (
    fpInstr fun _ _ => do
      let l ← evalField 2 dst
      let _ ← writeLoc l (← get).fpp.fps) s

/-- STST, R527: a register or an immediate destination takes the FEC only. -/
def execStst (dst : Operand) (s : State) : Host.Outcome State Fault Refusal :=
  runInstr (
    fpInstr fun _ _ => do
      let l ← longLoc dst
      let s ← get
      let _ ← writeLong (s.fpp.fec.setWidth 16) s.fpp.fea l) s

/-- CLRF and CLRD, R530. -/
def execClrf (fdst : Operand) (s : State) : Host.Outcome State Fault Refusal :=
  runInstr (
    fpInstr fun fea md =>
      withFpLoc fea md.fmt fdst fun l => do
        writeFp md.fmt 0 l
        setFcc { n := false, z := true, v := false, c := false }) s

/-- TSTF and TSTD, R531: -0 traps after execution. -/
def execTstf (fdst : Operand) (s : State) : Host.Outcome State Fault Refusal :=
  runInstr (
    fpInstr fun fea md =>
      withFpSource fea md.fmt fdst fun l v => do
        setFcc (fccOf v false)
        if undefinedTrap md l v then fpException fea .undefinedVariable else pure ()) s

/-- ABSF and NEGF: one evaluation, read, write back, codes, then the trap on -0 of the original operand (R532, R533). -/
def fpUnary (fdst : Operand) (f : Quad → Quad) : M Unit :=
  fpInstr fun fea md =>
    withFpSource fea md.fmt fdst fun l v => do
      writeFp md.fmt (f v) l
      setFcc (fccOf (f v) false)
      if undefinedTrap md l v then fpException fea .undefinedVariable else pure ()

/-- The magnitude of a value; any zero becomes exact 0 (R532). -/
def fpMagnitude (v : Quad) : Quad := if fpZero v then 0 else v &&& 0x7FFFFFFFFFFFFFFF

/-- ABSF and ABSD, R532. -/
def execAbsf (fdst : Operand) (s : State) : Host.Outcome State Fault Refusal :=
  runInstr (
    fpUnary fdst fpMagnitude) s

/-- NEGF and NEGD, R533. -/
def execNegf (fdst : Operand) (s : State) : Host.Outcome State Fault Refusal :=
  runInstr (
    fpUnary fdst fpNegate) s

/-- LDF and LDD, R534: the codes reflect a fetched -0 even when it traps. -/
def execLdf (ac : Ac) (fsrc : Operand) (s : State) : Host.Outcome State Fault Refusal :=
  runInstr (
    fpInstr fun fea md =>
      withFpSource fea md.fmt fsrc fun l v => do
        setFcc (fccOf v false)
        if undefinedTrap md l v then fpException fea .undefinedVariable else writeAc md.fmt (acIndex ac) v) s

/-- STF and STD, R535: no code changes. -/
def execStf (ac : Ac) (fdst : Operand) (s : State) : Host.Outcome State Fault Refusal :=
  runInstr (
    fpInstr fun fea md => do
      let a ← readAc md.fmt (acIndex ac)
      withFpLoc fea md.fmt fdst (writeFp md.fmt a)) s

/-- ADDF and ADDD, R540. -/
def execAddf (ac : Ac) (fsrc : Operand) (s : State) : Host.Outcome State Fault Refusal :=
  runInstr (
    fpArith ac fsrc fpAdd) s

/-- SUBF and SUBD, R541. -/
def execSubf (ac : Ac) (fsrc : Operand) (s : State) : Host.Outcome State Fault Refusal :=
  runInstr (
    fpArith ac fsrc fpSub) s

/-- MULF and MULD, R542. -/
def execMulf (ac : Ac) (fsrc : Operand) (s : State) : Host.Outcome State Fault Refusal :=
  runInstr (
    fpArith ac fsrc fpMul) s

/-- DIVF and DIVD, R543: a zero divisor changes nothing and raises code 4; a zero dividend gives exact 0. -/
def execDivf (ac : Ac) (fsrc : Operand) (s : State) : Host.Outcome State Fault Refusal :=
  runInstr (
    fpInstr fun fea md =>
      withFpOperand fea md fsrc fun v => do
        if fpZero v then fpException fea .divideByZero
        else
          let a ← readAc md.fmt (acIndex ac)
          deliverTo fea md.fmt (acIndex ac) (fpDiv md a v)) s

/-- The odd accumulator of an even one, where MODF leaves the integer part (R544). -/
def oddAc : Ac → Option (Fin 6)
  | .ac0 => some 1
  | .ac1 => none
  | .ac2 => some 3
  | .ac3 => none

/-- MODF and MODD, R544. -/
def execModf (ac : Ac) (fsrc : Operand) (s : State) : Host.Outcome State Fault Refusal :=
  runInstr (
    fpInstr fun fea md =>
      withFpOperand fea md fsrc fun v => do
        let a ← readAc md.fmt (acIndex ac)
        let r := fpMod md (Config.freeQuad (← nextFree)) a v
        match oddAc ac with
        | some n => writeAc md.fmt n r.whole
        | none => pure ()
        deliverTo fea md.fmt (acIndex ac) r.part) s

/-- CMPF and CMPD, R545: FSRC minus AC, a direction that is the spec's general knowledge (C40, PRESUMED, log 60); two zeros
leave exact 0 in AC. -/
def execCmpf (ac : Ac) (fsrc : Operand) (s : State) : Host.Outcome State Fault Refusal :=
  runInstr (
    fpInstr fun fea md =>
      withFpOperand fea md fsrc fun v => do
        let a ← readAc md.fmt (acIndex ac)
        let d := fpCompare v a
        setFcc { n := decide (d < 0), z := decide (d = 0), v := false, c := false }
        if fpZero v && fpZero a then writeAc md.fmt (acIndex ac) 0 else pure ()) s

/-- STEXP, R550: the codes of the FPS and of the PS, the latter against spec/10_state.md R33 (DEDUCED, log 55). -/
def execStexp (ac : Ac) (dst : Operand) (s : State) : Host.Outcome State Fault Refusal :=
  runInstr (
    fpInstr fun _ md => do
      let a ← readAc md.fmt (acIndex ac)
      let r := BitVec.ofInt 16 ((fpExp a : Int) - 0o200)
      let k := codesOf r false false
      let p ← writeLoc (← evalField 2 dst) r
      setFcc k
      setCodes p k) s

/-- LDEXP, R551. -/
def execLdexp (ac : Ac) (src : Operand) (s : State) : Host.Outcome State Fault Refusal :=
  runInstr (
    fpInstr fun fea md => do
      let n ← operandWord src
      let a ← readAc md.fmt (acIndex ac)
      deliverTo fea md.fmt (acIndex ac) (fpLoadExp md a n.toInt)) s

/-- The integer operand of the LDCIF class (R552). -/
def readInteger (md : FpModes) (src : Operand) : M Int := do
  if md.long then return (← readLong (← longLoc src)).toInt else return (← operandWord src).toInt

/-- LDCIF, LDCID, LDCLF and LDCLD, R552. -/
def execLdcif (ac : Ac) (src : Operand) (s : State) : Host.Outcome State Fault Refusal :=
  runInstr (
    fpInstr fun _ md => do
      let n ← readInteger md src
      let v := fpOfInt md n
      writeAc md.fmt (acIndex ac) v
      setFcc (fccOf v false)) s

/-- Store the integer of the STCFI class; the answer says whether the PS was written (R553). -/
def writeInteger (md : FpModes) (dst : Operand) (r : Int) : M Bool := do
  if md.long then
    let x := BitVec.ofInt 32 r
    writeLong (x.extractLsb' 16 16) (x.extractLsb' 0 16) (← longLoc dst)
  else writeLoc (← evalField 2 dst) (BitVec.ofInt 16 r)

/-- The largest power of the integer format: 2 ^ 15 or 2 ^ 31 (R475). -/
def integerLimit (md : FpModes) : Int := if md.long then 2 ^ 31 else 2 ^ 15

/-- STCFI, STCFL, STCDI and STCDL, R553: chopped; 0 with C set when it does not fit (D38, log 28); the PS codes are set too,
against spec/10_state.md R33 (DEDUCED, log 55). -/
def execStcfi (ac : Ac) (dst : Operand) (s : State) : Host.Outcome State Fault Refusal :=
  runInstr (
    fpInstr fun fea md => do
      let n := fpTrunc (← readAc md.fmt (acIndex ac))
      let ok := decide (-integerLimit md ≤ n ∧ n < integerLimit md)
      let r := if ok then n else 0
      let k : Codes := { n := decide (r < 0), z := decide (r = 0), v := false, c := !ok }
      let p ← writeInteger md dst r
      setFcc k
      setCodes p k
      if !ok && md.conversionTraps then fpException fea .conversion else pure ()) s

/-- LDCDF and LDCFD, R554: the source has the other format. -/
def execLdcdf (ac : Ac) (fsrc : Operand) (s : State) : Host.Outcome State Fault Refusal :=
  runInstr (
    fpInstr fun fea md =>
      withFpSource fea md.fmt.other fsrc fun l v => do
        if undefinedTrap md l v then
          setFcc (fccOf v false)
          fpException fea .undefinedVariable
        else deliverTo fea md.fmt (acIndex ac) (fpConvert md md.fmt.other v)) s

/-- STCFD and STCDF, R555: the destination has the other format; FZ and FN are those of the accumulator. -/
def execStcfd (ac : Ac) (fdst : Operand) (s : State) : Host.Outcome State Fault Refusal :=
  runInstr (
    fpInstr fun fea md => do
      let a ← readAc md.fmt (acIndex ac)
      let r := fpConvert md md.fmt a
      withFpLoc fea md.fmt.other fdst fun l => do
        writeFp md.fmt.other r.value l
        setFcc (fccOf a r.fv)
        fpRaise fea r.error) s

/-- The unassigned floating words: an illegal floating op code (R493, spec/30_encoding.md R218 (c)). -/
def execFpIllegal (_word : Word) (s : State) : Host.Outcome State Fault Refusal :=
  runInstr (fpInstr fun fea _ => fpException fea .opCode) s

end Sys2Proof.Machine
end

