-- ==== Sys2Proof/Machine/Jump.lean ====
section
/-! DEFINITION. Jump, subroutine, trap and return instructions (spec/44_jump_subroutine_trap.md). -/

namespace Sys2Proof.Machine

/-- Load the PC. -/
def jumpTo (pc : Word) : M Unit := modify fun s => { s with regs := { s.regs with pc := pc } }

/-- The address of a JMP or JSR destination; mode 0 is an illegal instruction, before anything else happens
(R400, R401, spec/30_encoding.md R218, R219). -/
def jumpAddress (dst : Operand) : M Word := do
  match (← evalField 2 dst) with
  | .reg _ => throw (.trap vectorIllegal)
  | .mem ea => return ea

/-- JMP, R400. -/
def execJmp (dst : Operand) (s : State) : Host.Outcome State Fault Refusal :=
  runInstr (do jumpTo (← jumpAddress dst)) s

/-- JSR, R401: R6 is decremented before the link register is read and stored; the link register takes the PC, the PC the
address formed first. -/
def execJsr (r : Reg) (dst : Operand) (s : State) : Host.Outcome State Fault Refusal :=
  runInstr (do
    let target ← jumpAddress dst
    let sp := (← readReg .sp) - 2
    writeReg .sp sp
    noteStackLimit sp
    let _ ← writeWord sp (← readReg r)
    writeReg r (← get).regs.pc
    jumpTo target) s

/-- RTS, R402. -/
def execRts (r : Reg) (s : State) : Host.Outcome State Fault Refusal :=
  runInstr (do
    jumpTo (← readReg r)
    let v ← pop
    writeReg r v) s

/-- MARK, R404. -/
def execMark (nn : BitVec 6) (s : State) : Host.Outcome State Fault Refusal :=
  runInstr (do
    writeReg .sp ((← get).regs.pc + (nn.setWidth 16 <<< 1))
    jumpTo (← readReg .r5)
    let v ← pop
    writeReg .r5 v) s

/-- EMT, R405: the low byte is the program's. -/
def execEmt (_code : Byte) (s : State) : Host.Outcome State Fault Refusal :=
  runInstr (raiseTrap 0o30) s

/-- TRAP, R406: the low byte is the program's. -/
def execTrap (_code : Byte) (s : State) : Host.Outcome State Fault Refusal :=
  runInstr (raiseTrap 0o34) s

/-- BPT, R407. -/
def execBpt (s : State) : Host.Outcome State Fault Refusal :=
  runInstr (raiseTrap 0o14) s

/-- IOT, R408. -/
def execIot (s : State) : Host.Outcome State Fault Refusal :=
  runInstr (raiseTrap 0o20) s

/-- RTI, R409. -/
def execRti (s : State) : Host.Outcome State Fault Refusal :=
  runInstr (returnFromTrap) s

/-- RTT, R410: as RTI, with no trace trap at its end. -/
def execRtt (s : State) : Host.Outcome State Fault Refusal :=
  runReturnTrace returnFromTrap s

/-- The reserved words: a trap through vector 10 and nothing else (spec/30_encoding.md R216, R219,
spec/60_exceptions.md R703). -/
def execReserved (_word : Word) (s : State) : Host.Outcome State Fault Refusal :=
  runInstr (raiseTrap vectorReserved) s

end Sys2Proof.Machine
end

