-- ==== Sys2Proof/Machine/Odt.lean ====
section
/-! DEFINITION. The halt state: console ODT (spec/70_reset_and_hazards.md section 4).

The microcode works through `odt.todo`, one bus action a step, and looks for an input character when nothing is left to do
(log 45). -/

namespace Sys2Proof.Machine

/-- Carriage return (R832). -/
def ascCr : Byte := 0o15

/-- Line feed. -/
def ascLf : Byte := 0o12

/-- The prompt `@`. -/
def ascPrompt : Byte := 0o100

/-- `?`. -/
def ascQuery : Byte := 0o77

/-- Space. -/
def ascSpace : Byte := 0o40

/-- `/`. -/
def ascSlash : Byte := 0o57

/-- `R`. -/
def ascR : Byte := 0o122

/-- The ASCII digit of an octal digit. -/
def ascDigit (d : BitVec 3) : Byte := 0o60 + d.setWidth 8

/-- Six octal digits of an 18-bit number, most significant first (R832, R851). -/
def oct6 (x : BitVec 18) : List Byte :=
  [ascDigit (x.extractLsb' 15 3), ascDigit (x.extractLsb' 12 3), ascDigit (x.extractLsb' 9 3),
   ascDigit (x.extractLsb' 6 3), ascDigit (x.extractLsb' 3 3), ascDigit (x.extractLsb' 0 3)]

/-- Print characters. -/
def puts (cs : List Byte) : List OdtOp := cs.map .put

/-- CR LF `@`. -/
def promptLine : List OdtOp := puts [ascCr, ascLf, ascPrompt]

/-- The console unit's registers at their fixed addresses (R831). -/
def consoleRcsr : PAddr := 0o17777560

/-- RBUF of the console unit. -/
def consoleRbuf : PAddr := 0o17777562

/-- TCSR (XCSR) of the console unit. -/
def consoleTcsr : PAddr := 0o17777564

/-- TBUF (XBUF) of the console unit. -/
def consoleTbuf : PAddr := 0o17777566

/-- Try a bus cycle: ODT meets a failing one with no trap (R842, I35). -/
def attempt {α : Type} (m : M α) : M (Option α) := fun s =>
  match m s with
  | .ok a s' => .ok (some a) s'
  | .error _ s' => .ok none s'

/-- A word write cycle of the console microcode; nothing there is a timeout. -/
def odtWrite (pa : PAddr) (v : Word) : M (Option Unit) := attempt (busWrite pa .word v)

/-- Replace the microcode's state. -/
def modifyOdt (f : Odt → Odt) : M Unit := modify fun s => { s with odt := f s.odt }

/-- The state of a prompt: 9 when a location has been opened before, else 1 (R843). -/
def promptState (o : Odt) : OdtState := if o.last.isSome then .s9 else .s1

/-- Back to a prompt: nothing open, no number. -/
def Odt.toPrompt (o : Odt) (todo : List OdtOp) : Odt :=
  { o with state := promptState o, opened := none, num := 0, haveNum := false, desig := none, dumpHi := none, todo := todo }

/-- An error answer: `?` CR LF `@`, and nothing stays open (R842, R843). -/
def odtError : M Unit := modifyOdt fun o => o.toPrompt (.put ascQuery :: promptLine)

/-- `enter_odt()` of R832: the character in RBUF is discarded, the PC is printed between line ends, then the prompt. -/
def enterOdt : M Unit := do
  let _ ← attempt (busRead consoleRbuf)
  modify fun s =>
    { s with
      run := .halted
      odt := { state := .s1, opened := none, last := none, num := 0, haveNum := false, desig := none, dumpHi := none,
               todo := puts ([ascCr, ascLf] ++ oct6 (s.regs.pc.setWidth 18)) ++ promptLine } }

/-- The physical address of an 18-bit ODT address: bit 0 ignored, never relocated, the I/O page at 760000 (R116, R836). -/
def odtAddr (a : BitVec 18) : PAddr :=
  let a := a &&& 0o777776
  if a.toNat < 0o760000 then a.setWidth 22 else BitVec.ofNat 22 (0o17000000 + a.toNat)

/-- The general register with a number. -/
def regNumber (n : BitVec 3) : Reg :=
  if n = 0 then .r0 else if n = 1 then .r1 else if n = 2 then .r2 else if n = 3 then .r3
  else if n = 4 then .r4 else if n = 5 then .r5 else if n = 6 then .sp else .pc

/-- Read a location: a bus cycle, or a register or the PS directly (R835, R839, R840). -/
def readOdtLoc : OdtLoc → M (Option Word)
  | .bus a => attempt (busRead (odtAddr a))
  | .reg n => do return some (← readReg (regNumber n))
  | .ps => do return some (← get).ps

/-- Store into a location; the trace bit cannot be changed (R837, R840). -/
def writeOdtLoc (l : OdtLoc) (v : Word) : M (Option Unit) := do
  match l with
  | .bus a => odtWrite (odtAddr a) v
  | .reg n => writeReg (regNumber n) v; return some ()
  | .ps => modify fun s => { s with ps := merge psExplicit v s.ps }; return some ()

/-- Open a location: print its contents and a space, leave it open (R835). -/
def openOdtLoc (l : OdtLoc) : M Unit := do
  match (← readOdtLoc l) with
  | none => odtError
  | some v =>
    modifyOdt fun o =>
      { o with
        state := match l with
          | .bus _ => .s3
          | _ => .s4
        opened := some l, last := some l, num := 0, haveNum := false
        todo := puts (oct6 (v.setWidth 18) ++ [ascSpace]) }

/-- The G command after its nulls (R846): pending requests are discarded (D11, log 15). It clears the FPS, as R805, R814,
R846 and R850 say against the table of spec/10_state.md R80 (DESIGN CHOICE, log 53). -/
def odtGo : M Unit :=
  modify fun s =>
    let t := busInit s
    { t with
      regs := { t.regs with pc := if s.odt.haveNum then s.odt.num.setWidth 16 else 0 }
      ps := 0
      fpp := if s.cfg.fpPresent then { t.fpp with fps := 0 } else t.fpp
      pend := { trap := none, trace := false, stkovf := false, pwrdwn := false, proceed := false }
      odt := s.odt.toPrompt []
      run := .running }

/-- The P command after its echo: one instruction is fetched before the next service state (R847). -/
def odtProceed : M Unit :=
  modify fun s => { s with run := .running, pend := { s.pend with proceed := true }, odt := s.odt.toPrompt [] }

/-- One action of the microcode; `rest` is what follows it. A byte of a dump is printed before the next is read, so that those
before a timeout have been sent (R848, DESIGN CHOICE, log 59). -/
def odtAct (op : OdtOp) (rest : List OdtOp) : M Unit := do
  match op with
  | .put c =>
    match (← attempt (busRead consoleTcsr)) with
    | none => pure ()
    | some w =>
      if w.getLsbD 7 then
        let _ ← odtWrite consoleTbuf (c.setWidth 16)
        modifyOdt fun o => { o with todo := rest }
      else pure ()
  | .openLoc l => openOdtLoc l
  | .deposit l v =>
    match (← writeOdtLoc l v) with
    | none => odtError
    | some _ => modifyOdt fun o => { o with todo := rest }
  | .dumpByte a =>
    match (← attempt (busRead (a.setWidth 22))) with
    | none => odtError
    | some w =>
      modifyOdt fun o => { o with todo := .put (selectByte (a.setWidth 22) w) :: rest }
  | .go => odtGo
  | .proceed => odtProceed

/-- What may be typed at a prompt (R834: states 1 and 9). -/
def OdtState.atPrompt : OdtState → Bool
  | .s1 => true
  | .s9 => true
  | _ => false

/-- A location is open (R834: states 3, 4, 7, 8). -/
def OdtState.isOpen : OdtState → Bool
  | .s3 => true
  | .s4 => true
  | .s7 => true
  | .s8 => true
  | _ => false

/-- The location a register designator names (R839, D56). -/
def designated (o : Odt) : Option OdtLoc :=
  match o.desig with
  | none => none
  | some .ps => some .ps
  | some (.digit d) => if o.num &&& 0o777 = 0o77 ∨ o.num &&& 0o777 = 0o477 then some .ps else some (.reg d)

/-- What `/` opens, if it is valid now (R835). -/
def slashTarget (o : Odt) : Option OdtLoc :=
  match o.state with
  | .s5 => some (.bus o.num)
  | .s6 => designated o
  | .s9 => o.last
  | _ => none

/-- The deposit a CR or LF makes: the new data, if any was typed (R837, R838). -/
def pendingDeposit (o : Odt) : List OdtOp :=
  match o.opened with
  | some l => if o.haveNum then [.deposit l (o.num.setWidth 16)] else []
  | none => []

/-- The bus address after this one, within its 32K-word segment (R838). -/
def nextBus (a : BitVec 18) : BitVec 18 := (a &&& 0o600000) ||| ((a + 2) &&& 0o177777)

/-- What LF prints and opens after closing a location (R838). After an odd address, whose bit 0 the reference ignores, it is
the odd address 2 above (DESIGN CHOICE, log 58). -/
def nextLocation : Option OdtLoc → List OdtOp
  | some (.bus a) => puts (oct6 (nextBus a) ++ [ascSlash]) ++ [.openLoc (.bus (nextBus a))]
  | some (.reg n) => puts [ascR, ascDigit (n + 1), ascSlash] ++ [.openLoc (.reg (n + 1))]
  | some .ps => []
  | none => []

/-- The state after a digit (R841). -/
def OdtState.afterDigit : OdtState → OdtState
  | .s1 => .s5
  | .s9 => .s5
  | .s2 => .s6
  | .s3 => .s7
  | .s4 => .s8
  | st => st

/-- The octal digit a character is, if it is one. -/
def digitOf (k : Byte) : Option (BitVec 3) :=
  if 0o60 ≤ k.toNat ∧ k.toNat ≤ 0o67 then some (k.extractLsb' 0 3) else none

/-- A digit: it is echoed and shifted into the number; in a designator it names a register (R839, R841). -/
def Odt.digit (o : Odt) (c : Byte) (d : BitVec 3) : Odt :=
  { o with
    state := o.state.afterDigit
    num := o.num * 8 + d.setWidth 18
    haveNum := true
    desig := if o.state = .s2 ∨ o.state = .s6 then some (.digit d) else o.desig
    todo := [.put c] }

/-- The characters ODT does not echo: 0, 2, 10 and 12 with either parity (R833). -/
def notEchoed (k : Byte) : Bool := k == 0 || k == 2 || k == 0o10 || k == 0o12

/-- An invalid character: echo, `?` CR LF `@` (R843). -/
def Odt.invalid (o : Odt) (c : Byte) : Odt :=
  o.toPrompt ((if notEchoed (c &&& 0o177) then [] else [.put c]) ++ (.put ascQuery :: promptLine))

/-- The eight bytes of a dump from an address (R848). -/
def dumpOps (a : Word) : List OdtOp :=
  [.dumpByte a, .dumpByte (a + 1), .dumpByte (a + 2), .dumpByte (a + 3),
   .dumpByte (a + 4), .dumpByte (a + 5), .dumpByte (a + 6), .dumpByte (a + 7)]

/-- A byte of a dump address (state 10), not echoed (R848). -/
def Odt.dumpAddress (o : Odt) (c : Byte) : Odt :=
  match o.dumpHi with
  | none => { o with dumpHi := some c, todo := [] }
  | some hi => o.toPrompt (dumpOps (wordOf hi c) ++ promptLine)

/-- A command character other than a digit, decoded from bits <6:0> `k`; `c` is the character as received (R833 to R849). -/
def Odt.command (o : Odt) (c k : Byte) : Odt :=
  if k = ascSlash then
    match slashTarget o with
    | some l => { o with todo := [.put c, .openLoc l] }
    | none => o.invalid c
  else if k = ascCr ∧ o.state.isOpen then
    (o.toPrompt (.put c :: (pendingDeposit o ++ promptLine)))
  else if k = ascLf ∧ o.state.isOpen then
    (o.toPrompt (pendingDeposit o ++ (promptLine ++ nextLocation o.opened)))
  else if (k = ascR ∨ k = 0o44) ∧ o.state.atPrompt then
    { o with state := .s2, num := 0, haveNum := false, desig := none, todo := [.put c] }
  else if k = 0o123 ∧ (o.state = .s2 ∨ o.state = .s6) then
    { o with state := .s6, num := 0, haveNum := false, desig := some .ps, todo := [.put c] }
  else if k = 0o107 ∧ (o.state.atPrompt ∨ o.state = .s5) then
    { o with todo := [.put c, .put 0, .put 0, .go] }
  else if k = 0o120 ∧ o.state.atPrompt then
    { o with todo := [.put c, .proceed] }
  else if k = 0o23 ∧ o.state.atPrompt then
    { o with state := .s10, dumpHi := none, todo := [.put c] }
  else if k = 0o110 ∧ o.state.atPrompt then
    { o with todo := [.put c, .put ascPrompt] }
  else o.invalid c

/-- One input character (R833). -/
def Odt.accept (o : Odt) (c : Byte) : Odt :=
  if o.state = .s10 then o.dumpAddress c
  else
    match digitOf (c &&& 0o177) with
    | some d => o.digit c d
    | none => o.command c (c &&& 0o177)

/-- Look for an input character: test RCSR<7>, then read RBUF (R831). With no console answering, this goes on for ever
(I34, log 45). -/
def odtPoll : M Unit := do
  match (← attempt (busRead consoleRcsr)) with
  | none => pure ()
  | some w =>
    if w.getLsbD 7 then
      match (← attempt (busRead consoleRbuf)) with
      | none => pure ()
      | some v => modifyOdt fun o => o.accept (lowByte v)
    else pure ()

/-- One step of the halt state. -/
def odtStep (s : State) : State :=
  let m := match s.odt.todo with
    | [] => odtPoll
    | op :: rest => odtAct op rest
  match m s with
  | .ok _ s' => s'
  | .error _ s' => s'

end Sys2Proof.Machine
end

