-- ==== Sys2Proof/Machine/Misc.lean ====
section
/-! DEFINITION. HALT, WAIT, RESET and MFPT (spec/45_misc_cc_mmu_ps.md section 1). -/

namespace Sys2Proof.Machine

/-- The effect of HALT (R430): a trap outside kernel mode; in kernel mode the wait for BPOK H while power is failing, after
which the power-up action follows (spec/70_reset_and_hazards.md R810, log 42), the trap of `HALT_TRAP`, or ODT. -/
def haltAction : M Unit := do
  let s ← get
  if s.mode ≠ .kernel then throw (.trap vectorReserved)
  else if !s.lines.bpok then set { s with run := .awaitingBpok }
  else if s.cfg.haltTrap then throw (.trap vectorReserved)
  else enterOdt

/-- HALT, R430. -/
def execHalt (s : State) : Host.Outcome State Fault Refusal :=
  runInstr haltAction s

/-- WAIT, R431: the processor waits; the events that end the wait are met in the service state. -/
def execWait (s : State) : Host.Outcome State Fault Refusal :=
  runInstr (modify fun s => { s with run := .waiting }) s

/-- RESET, R432: BINIT in kernel mode, nothing in any other. -/
def execReset (s : State) : Host.Outcome State Fault Refusal :=
  runInstr (modify fun s => if s.mode = .kernel then busInit s else s) s

/-- MFPT, R434: the processor type number. -/
def execMfpt (s : State) : Host.Outcome State Fault Refusal :=
  runInstr (writeReg .r0 3) s

end Sys2Proof.Machine
end

