-- ==== Sys2Proof/Machine/PsMove.lean ====
section
/-! DEFINITION. MFPI, MFPD, MTPI, MTPD, MFPS and MTPS (spec/45_misc_cc_mmu_ps.md R449 to R455). -/

namespace Sys2Proof.Machine

/-- The previous mode, PS<13:12> (spec/10_state.md R38). -/
def previousMode : M Mode := do return psPrevious (← get).ps

/-- A register operand of these four: R6 is that of the previous mode (D31, log 26). -/
def readPrevReg (r : Reg) : M Word := do
  if r = .sp then readSpOf (← previousMode) else readReg r

/-- Write such a register operand. -/
def writePrevReg (r : Reg) (w : Word) : M Unit := do
  if r = .sp then writeSpOf (← previousMode) w else writeReg r w

/-- MFPI and MFPD: the address is formed with the current mode's registers and map, the word is read in the previous
mode's space and pushed on the current stack (R450). -/
def moveFromPrevious (src : Operand) : M Unit := do
  let v ← match (← evalField 2 src) with
    | .reg r => readPrevReg r
    | .mem ea => do readWordIn (← previousMode) ea
  let k := moveCodes (← codesNow) v
  setCodes (← push v) k

/-- MTPI and MTPD: the word is popped first (D32), then the destination is evaluated, then written in the previous mode's
space (R452). -/
def moveToPrevious (dst : Operand) : M Unit := do
  let v ← pop
  match (← evalField 2 dst) with
  | .reg r =>
    writePrevReg r v
    setCodesOnly (moveCodes (← codesNow) v)
  | .mem ea =>
    let k := moveCodes (← codesNow) v
    setCodes (← writeWordIn (← previousMode) ea v) k

/-- MFPI, R450. -/
def execMfpi (src : Operand) (s : State) : Host.Outcome State Fault Refusal :=
  runInstr (moveFromPrevious src) s

/-- MFPD, R451: as MFPI, there being no data space. -/
def execMfpd (src : Operand) (s : State) : Host.Outcome State Fault Refusal :=
  runInstr (moveFromPrevious src) s

/-- MTPI, R452. -/
def execMtpi (dst : Operand) (s : State) : Host.Outcome State Fault Refusal :=
  runInstr (moveToPrevious dst) s

/-- MTPD, R453: as MTPI. -/
def execMtpd (dst : Operand) (s : State) : Host.Outcome State Fault Refusal :=
  runInstr (moveToPrevious dst) s

/-- MFPS, R454: PS<7:0> before the instruction; a register takes it with its sign extended. -/
def execMfps (dst : Operand) (s : State) : Host.Outcome State Fault Refusal :=
  runInstr (do
    let b := lowByte (← get).ps
    let l ← evalField 1 dst
    let k := moveCodes (← codesNow) b
    if dst.mode = .register then
      writeReg dst.reg (signExtendByte b)
      setCodesOnly k
    else storeByte l (b, k)) s

/-- The bits MTPS loads: priority and codes in kernel mode, the codes alone in any other (R455, R760). -/
def mtpsMask (mode : Mode) : Word :=
  match mode with
  | .kernel => 0o357
  | _ => 0o17

/-- MTPS, R455: the T bit never changes. -/
def execMtps (src : Operand) (s : State) : Host.Outcome State Fault Refusal :=
  runInstr (do
    let b ← readLocByte (← evalField 1 src)
    modify fun s => { s with ps := merge (mtpsMask s.mode) (b.setWidth 16) s.ps }) s

end Sys2Proof.Machine
end

