-- ==== Sys2Proof/Machine/SingleOperand.lean ====
section
/-! DEFINITION. The single-operand instructions (spec/41_single_operand.md): one definition each, over the frame of R300. -/

namespace Sys2Proof.Machine

/-- CLR, R280: the destination is written, not read. -/
def execClr (dst : Operand) (s : State) : Host.Outcome State Fault Refusal :=
  runInstr (do storeWord (← evalField 2 dst) aluClr) s

/-- CLRB, R280. -/
def execClrb (dst : Operand) (s : State) : Host.Outcome State Fault Refusal :=
  runInstr (do storeByte (← evalField 1 dst) aluClr) s

/-- COM, R281. -/
def execCom (dst : Operand) (s : State) : Host.Outcome State Fault Refusal :=
  runInstr (singleWord dst (fun _ d => aluCom d)) s

/-- COMB, R281. -/
def execComb (dst : Operand) (s : State) : Host.Outcome State Fault Refusal :=
  runInstr (singleByte dst (fun _ d => aluCom d)) s

/-- INC, R282. -/
def execInc (dst : Operand) (s : State) : Host.Outcome State Fault Refusal :=
  runInstr (singleWord dst aluInc) s

/-- INCB, R282. -/
def execIncb (dst : Operand) (s : State) : Host.Outcome State Fault Refusal :=
  runInstr (singleByte dst aluInc) s

/-- DEC, R283. -/
def execDec (dst : Operand) (s : State) : Host.Outcome State Fault Refusal :=
  runInstr (singleWord dst aluDec) s

/-- DECB, R283. -/
def execDecb (dst : Operand) (s : State) : Host.Outcome State Fault Refusal :=
  runInstr (singleByte dst aluDec) s

/-- NEG, R284. -/
def execNeg (dst : Operand) (s : State) : Host.Outcome State Fault Refusal :=
  runInstr (singleWord dst (fun _ d => aluNeg d)) s

/-- NEGB, R284. -/
def execNegb (dst : Operand) (s : State) : Host.Outcome State Fault Refusal :=
  runInstr (singleByte dst (fun _ d => aluNeg d)) s

/-- ADC, R285. -/
def execAdc (dst : Operand) (s : State) : Host.Outcome State Fault Refusal :=
  runInstr (singleWord dst aluAdc) s

/-- ADCB, R285. -/
def execAdcb (dst : Operand) (s : State) : Host.Outcome State Fault Refusal :=
  runInstr (singleByte dst aluAdc) s

/-- SBC, R286. -/
def execSbc (dst : Operand) (s : State) : Host.Outcome State Fault Refusal :=
  runInstr (singleWord dst aluSbc) s

/-- SBCB, R286. -/
def execSbcb (dst : Operand) (s : State) : Host.Outcome State Fault Refusal :=
  runInstr (singleByte dst aluSbc) s

/-- ROR, R290. -/
def execRor (dst : Operand) (s : State) : Host.Outcome State Fault Refusal :=
  runInstr (singleWord dst aluRor) s

/-- RORB, R290. -/
def execRorb (dst : Operand) (s : State) : Host.Outcome State Fault Refusal :=
  runInstr (singleByte dst aluRor) s

/-- ROL, R291. -/
def execRol (dst : Operand) (s : State) : Host.Outcome State Fault Refusal :=
  runInstr (singleWord dst aluRol) s

/-- ROLB, R291. -/
def execRolb (dst : Operand) (s : State) : Host.Outcome State Fault Refusal :=
  runInstr (singleByte dst aluRol) s

/-- ASR, R292. -/
def execAsr (dst : Operand) (s : State) : Host.Outcome State Fault Refusal :=
  runInstr (singleWord dst (fun _ d => aluAsr d)) s

/-- ASRB, R292. -/
def execAsrb (dst : Operand) (s : State) : Host.Outcome State Fault Refusal :=
  runInstr (singleByte dst (fun _ d => aluAsr d)) s

/-- ASL, R293. -/
def execAsl (dst : Operand) (s : State) : Host.Outcome State Fault Refusal :=
  runInstr (singleWord dst (fun _ d => aluAsl d)) s

/-- ASLB, R293. -/
def execAslb (dst : Operand) (s : State) : Host.Outcome State Fault Refusal :=
  runInstr (singleByte dst (fun _ d => aluAsl d)) s

/-- TST, R287: the destination is read only. -/
def execTst (dst : Operand) (s : State) : Host.Outcome State Fault Refusal :=
  runInstr (do setCodesOnly (aluTst (← readLoc (← evalField 2 dst)))) s

/-- TSTB, R287. -/
def execTstb (dst : Operand) (s : State) : Host.Outcome State Fault Refusal :=
  runInstr (do setCodesOnly (aluTst (← readLocByte (← evalField 1 dst)))) s

/-- SWAB, R304. -/
def execSwab (dst : Operand) (s : State) : Host.Outcome State Fault Refusal :=
  runInstr (singleWord dst (fun _ d => aluSwab d)) s

/-- SXT, R305: the destination is written, not read; the codes are those before the instruction. -/
def execSxt (dst : Operand) (s : State) : Host.Outcome State Fault Refusal :=
  runInstr (do
    let l ← evalField 2 dst
    storeWord l (aluSxt (← codesNow))) s

end Sys2Proof.Machine
end

