-- ==== Sys2Proof/Machine/Dispatch.lean ====
section
/-! DEFINITION. The meaning of every instruction: one arm per constructor of `Instr`. -/

namespace Sys2Proof.Machine

/-- Run one decoded instruction. -/
def exec (i : Instr) (s : State) : Host.Outcome State Fault Refusal :=
  match i with
  | .halt => Sys2Proof.Machine.execHalt s
  | .wait => Sys2Proof.Machine.execWait s
  | .rti => Sys2Proof.Machine.execRti s
  | .bpt => Sys2Proof.Machine.execBpt s
  | .iot => Sys2Proof.Machine.execIot s
  | .reset => Sys2Proof.Machine.execReset s
  | .rtt => Sys2Proof.Machine.execRtt s
  | .mfpt => Sys2Proof.Machine.execMfpt s
  | .jmp dst => Sys2Proof.Machine.execJmp dst s
  | .rts r => Sys2Proof.Machine.execRts r s
  | .nop => Sys2Proof.Machine.execNop s
  | .clc => Sys2Proof.Machine.execClc s
  | .clv => Sys2Proof.Machine.execClv s
  | .clz => Sys2Proof.Machine.execClz s
  | .cln => Sys2Proof.Machine.execCln s
  | .ccc => Sys2Proof.Machine.execCcc s
  | .clearCodes mask => Sys2Proof.Machine.execClearCodes mask s
  | .sec => Sys2Proof.Machine.execSec s
  | .sev => Sys2Proof.Machine.execSev s
  | .sez => Sys2Proof.Machine.execSez s
  | .sen => Sys2Proof.Machine.execSen s
  | .scc => Sys2Proof.Machine.execScc s
  | .setCodes mask => Sys2Proof.Machine.execSetCodes mask s
  | .swab dst => Sys2Proof.Machine.execSwab dst s
  | .br offset => Sys2Proof.Machine.execBr offset s
  | .bne offset => Sys2Proof.Machine.execBne offset s
  | .beq offset => Sys2Proof.Machine.execBeq offset s
  | .bge offset => Sys2Proof.Machine.execBge offset s
  | .blt offset => Sys2Proof.Machine.execBlt offset s
  | .bgt offset => Sys2Proof.Machine.execBgt offset s
  | .ble offset => Sys2Proof.Machine.execBle offset s
  | .bpl offset => Sys2Proof.Machine.execBpl offset s
  | .bmi offset => Sys2Proof.Machine.execBmi offset s
  | .bhi offset => Sys2Proof.Machine.execBhi offset s
  | .blos offset => Sys2Proof.Machine.execBlos offset s
  | .bvc offset => Sys2Proof.Machine.execBvc offset s
  | .bvs offset => Sys2Proof.Machine.execBvs offset s
  | .bcc offset => Sys2Proof.Machine.execBcc offset s
  | .bcs offset => Sys2Proof.Machine.execBcs offset s
  | .jsr r dst => Sys2Proof.Machine.execJsr r dst s
  | .clr dst => Sys2Proof.Machine.execClr dst s
  | .clrb dst => Sys2Proof.Machine.execClrb dst s
  | .com dst => Sys2Proof.Machine.execCom dst s
  | .comb dst => Sys2Proof.Machine.execComb dst s
  | .inc dst => Sys2Proof.Machine.execInc dst s
  | .incb dst => Sys2Proof.Machine.execIncb dst s
  | .dec dst => Sys2Proof.Machine.execDec dst s
  | .decb dst => Sys2Proof.Machine.execDecb dst s
  | .neg dst => Sys2Proof.Machine.execNeg dst s
  | .negb dst => Sys2Proof.Machine.execNegb dst s
  | .adc dst => Sys2Proof.Machine.execAdc dst s
  | .adcb dst => Sys2Proof.Machine.execAdcb dst s
  | .sbc dst => Sys2Proof.Machine.execSbc dst s
  | .sbcb dst => Sys2Proof.Machine.execSbcb dst s
  | .tst dst => Sys2Proof.Machine.execTst dst s
  | .tstb dst => Sys2Proof.Machine.execTstb dst s
  | .ror dst => Sys2Proof.Machine.execRor dst s
  | .rorb dst => Sys2Proof.Machine.execRorb dst s
  | .rol dst => Sys2Proof.Machine.execRol dst s
  | .rolb dst => Sys2Proof.Machine.execRolb dst s
  | .asr dst => Sys2Proof.Machine.execAsr dst s
  | .asrb dst => Sys2Proof.Machine.execAsrb dst s
  | .asl dst => Sys2Proof.Machine.execAsl dst s
  | .aslb dst => Sys2Proof.Machine.execAslb dst s
  | .mark nn => Sys2Proof.Machine.execMark nn s
  | .mfpi src => Sys2Proof.Machine.execMfpi src s
  | .mtpi dst => Sys2Proof.Machine.execMtpi dst s
  | .sxt dst => Sys2Proof.Machine.execSxt dst s
  | .mov src dst => Sys2Proof.Machine.execMov src dst s
  | .movb src dst => Sys2Proof.Machine.execMovb src dst s
  | .cmp src dst => Sys2Proof.Machine.execCmp src dst s
  | .cmpb src dst => Sys2Proof.Machine.execCmpb src dst s
  | .bit src dst => Sys2Proof.Machine.execBit src dst s
  | .bitb src dst => Sys2Proof.Machine.execBitb src dst s
  | .bic src dst => Sys2Proof.Machine.execBic src dst s
  | .bicb src dst => Sys2Proof.Machine.execBicb src dst s
  | .bis src dst => Sys2Proof.Machine.execBis src dst s
  | .bisb src dst => Sys2Proof.Machine.execBisb src dst s
  | .add src dst => Sys2Proof.Machine.execAdd src dst s
  | .sub src dst => Sys2Proof.Machine.execSub src dst s
  | .mul r src => Sys2Proof.Machine.execMul r src s
  | .div r src => Sys2Proof.Machine.execDiv r src s
  | .ash r src => Sys2Proof.Machine.execAsh r src s
  | .ashc r src => Sys2Proof.Machine.execAshc r src s
  | .xor r dst => Sys2Proof.Machine.execXor r dst s
  | .sob r nn => Sys2Proof.Machine.execSob r nn s
  | .emt code => Sys2Proof.Machine.execEmt code s
  | .trap code => Sys2Proof.Machine.execTrap code s
  | .mtps src => Sys2Proof.Machine.execMtps src s
  | .mfpd src => Sys2Proof.Machine.execMfpd src s
  | .mtpd dst => Sys2Proof.Machine.execMtpd dst s
  | .mfps dst => Sys2Proof.Machine.execMfps dst s
  | .cfcc => Sys2Proof.Machine.execCfcc s
  | .setf => Sys2Proof.Machine.execSetf s
  | .seti => Sys2Proof.Machine.execSeti s
  | .setd => Sys2Proof.Machine.execSetd s
  | .setl => Sys2Proof.Machine.execSetl s
  | .ldfps src => Sys2Proof.Machine.execLdfps src s
  | .stfps dst => Sys2Proof.Machine.execStfps dst s
  | .stst dst => Sys2Proof.Machine.execStst dst s
  | .clrf fdst => Sys2Proof.Machine.execClrf fdst s
  | .tstf fdst => Sys2Proof.Machine.execTstf fdst s
  | .absf fdst => Sys2Proof.Machine.execAbsf fdst s
  | .negf fdst => Sys2Proof.Machine.execNegf fdst s
  | .mulf ac fsrc => Sys2Proof.Machine.execMulf ac fsrc s
  | .modf ac fsrc => Sys2Proof.Machine.execModf ac fsrc s
  | .addf ac fsrc => Sys2Proof.Machine.execAddf ac fsrc s
  | .ldf ac fsrc => Sys2Proof.Machine.execLdf ac fsrc s
  | .subf ac fsrc => Sys2Proof.Machine.execSubf ac fsrc s
  | .cmpf ac fsrc => Sys2Proof.Machine.execCmpf ac fsrc s
  | .stf ac fdst => Sys2Proof.Machine.execStf ac fdst s
  | .divf ac fsrc => Sys2Proof.Machine.execDivf ac fsrc s
  | .stexp ac dst => Sys2Proof.Machine.execStexp ac dst s
  | .stcfi ac dst => Sys2Proof.Machine.execStcfi ac dst s
  | .stcfd ac fdst => Sys2Proof.Machine.execStcfd ac fdst s
  | .ldexp ac src => Sys2Proof.Machine.execLdexp ac src s
  | .ldcif ac src => Sys2Proof.Machine.execLdcif ac src s
  | .ldcdf ac fsrc => Sys2Proof.Machine.execLdcdf ac fsrc s
  | .l2d r => Sys2Proof.Machine.execL2d r s
  | .l3d r => Sys2Proof.Machine.execL3d r s
  | .movc => Sys2Proof.Machine.execMovc s
  | .movci => Sys2Proof.Machine.execMovci s
  | .movrc => Sys2Proof.Machine.execMovrc s
  | .movrci => Sys2Proof.Machine.execMovrci s
  | .movtc => Sys2Proof.Machine.execMovtc s
  | .movtci => Sys2Proof.Machine.execMovtci s
  | .locc => Sys2Proof.Machine.execLocc s
  | .locci => Sys2Proof.Machine.execLocci s
  | .skpc => Sys2Proof.Machine.execSkpc s
  | .skpci => Sys2Proof.Machine.execSkpci s
  | .scanc => Sys2Proof.Machine.execScanc s
  | .scanci => Sys2Proof.Machine.execScanci s
  | .spanc => Sys2Proof.Machine.execSpanc s
  | .spanci => Sys2Proof.Machine.execSpanci s
  | .cmpc => Sys2Proof.Machine.execCmpc s
  | .cmpci => Sys2Proof.Machine.execCmpci s
  | .matc => Sys2Proof.Machine.execMatc s
  | .matci => Sys2Proof.Machine.execMatci s
  | .addn => Sys2Proof.Machine.execAddn s
  | .addni => Sys2Proof.Machine.execAddni s
  | .subn => Sys2Proof.Machine.execSubn s
  | .subni => Sys2Proof.Machine.execSubni s
  | .cmpn => Sys2Proof.Machine.execCmpn s
  | .cmpni => Sys2Proof.Machine.execCmpni s
  | .cvtnl => Sys2Proof.Machine.execCvtnl s
  | .cvtnli => Sys2Proof.Machine.execCvtnli s
  | .cvtpn => Sys2Proof.Machine.execCvtpn s
  | .cvtpni => Sys2Proof.Machine.execCvtpni s
  | .cvtnp => Sys2Proof.Machine.execCvtnp s
  | .cvtnpi => Sys2Proof.Machine.execCvtnpi s
  | .ashn => Sys2Proof.Machine.execAshn s
  | .ashni => Sys2Proof.Machine.execAshni s
  | .cvtln => Sys2Proof.Machine.execCvtln s
  | .cvtlni => Sys2Proof.Machine.execCvtlni s
  | .addp => Sys2Proof.Machine.execAddp s
  | .addpi => Sys2Proof.Machine.execAddpi s
  | .subp => Sys2Proof.Machine.execSubp s
  | .subpi => Sys2Proof.Machine.execSubpi s
  | .cmpp => Sys2Proof.Machine.execCmpp s
  | .cmppi => Sys2Proof.Machine.execCmppi s
  | .cvtpl => Sys2Proof.Machine.execCvtpl s
  | .cvtpli => Sys2Proof.Machine.execCvtpli s
  | .mulp => Sys2Proof.Machine.execMulp s
  | .mulpi => Sys2Proof.Machine.execMulpi s
  | .divp => Sys2Proof.Machine.execDivp s
  | .divpi => Sys2Proof.Machine.execDivpi s
  | .ashp => Sys2Proof.Machine.execAshp s
  | .ashpi => Sys2Proof.Machine.execAshpi s
  | .cvtlp => Sys2Proof.Machine.execCvtlp s
  | .cvtlpi => Sys2Proof.Machine.execCvtlpi s
  | .reserved word => Sys2Proof.Machine.execReserved word s
  | .fpIllegal word => Sys2Proof.Machine.execFpIllegal word s

end Sys2Proof.Machine
end

