-- ==== Sys2Proof/Machine/Power.lean ====
section
/-! DEFINITION. Power-up and power-down (spec/70_reset_and_hazards.md sections 1 and 2). -/

namespace Sys2Proof.Machine

/-- The PDR bits that exist: PLF, W, ED, ACF (spec/10_state.md R45). -/
def pdrImplemented : Word := 0o077516

/-- The FPS bits that exist: all but 13, 12 and 4 (spec/10_state.md R56, D7, log 11). -/
def fpsImplemented : Word := 0o147757

/-- A word no rule gives, number `n` (I20, I28). -/
def anyWords (n : Nat) : Vector Word 8 := Vector.ofFn fun i => Config.freeWord (n + i.val)

/-- What R80 calls unspecified after power-up: the general registers. -/
def anyRegs (n : Nat) : Regs where
  r0 := Config.freeWord n
  r1 := Config.freeWord (n + 1)
  r2 := Config.freeWord (n + 2)
  r3 := Config.freeWord (n + 3)
  r4 := Config.freeWord (n + 4)
  r5 := Config.freeWord (n + 5)
  ksp := Config.freeWord (n + 6)
  ssp := Config.freeWord (n + 7)
  xsp := Config.freeWord (n + 8)
  usp := Config.freeWord (n + 9)
  pc := Config.freeWord (n + 10)

/-- The memory management registers after power-up: SR0 and SR3 clear, the rest unspecified (R54, R80). -/
def anyMmu (n : Nat) : Mmu where
  kpar := anyWords n
  kpdr := (anyWords (n + 8)).map fun w => w &&& pdrImplemented
  upar := anyWords (n + 16)
  updr := (anyWords (n + 24)).map fun w => w &&& pdrImplemented
  sr0 := 0
  sr2 := Config.freeWord (n + 32)
  sr3 := 0

/-- The floating-point registers after power-up: unspecified (R55 to R57). -/
def anyFpp (n : Nat) : Fpp where
  ac := Vector.ofFn fun i => Config.freeQuad (n + i.val)
  fps := Config.freeWord n &&& fpsImplemented
  fec := Config.freeCodes n
  fea := Config.freeWord (n + 1)

/-- A serial-line unit after power-up: its data unspecified (R64, R68). -/
def Slu.powerUp (x : Slu) (n : Nat) : Slu :=
  { Slu.reset with rbuf := Config.freeByte n, tbuf := Config.freeByte (n + 1), sent := x.sent }

/-- DC power is lost: the processor stops and gives BINIT (R810 step 4, R812 condition 1). What else it held is gone; `powerUp`
says so. -/
def powerDown (s : State) : State := { busInit s with run := .poweredDown }

/-- DC power returns: the chip reset and BINIT of R800; the processor then tests BPOK H. Memory keeps its content only if
it is nonvolatile (R810, log 42). -/
def powerUp (s : State) : State :=
  let n := s.free
  busInit
    { s with
      regs := anyRegs n
      ps := 0
      mmu := anyMmu (n + 16)
      fpp := anyFpp (n + 64)
      slu1 := s.slu1.powerUp n
      slu2 := s.slu2.powerUp (n + 2)
      mem := if s.cfg.nonvolatile then s.mem else Memory.writeAll [] (Config.powerUpMemory n)
      run := .awaitingBpok
      pend := { trap := none, trace := false, stkovf := false, pwrdwn := false, proceed := false }
      odt := { state := .s1, opened := none, last := none, num := 0, haveNum := false, desig := none, dumpHi := none,
               todo := [] }
      free := n + 80 }

/-- Enter ODT when the halt line is asserted, else run (R803). -/
def haltLineAsserted (s : State) : Bool := s.lines.bhalt || s.lines.breakHalt

/-- Power-up mode 0: the PC and PS are loaded from 24 and 26; a failing read is as one in a trap sequence (R803, D57,
log 41). -/
def loadRestart : M Unit := do
  let pc ← busRead 0o24
  modify fun s => { s with regs := { s.regs with pc := pc } }
  let ps ← busRead 0o26
  modify fun s => { s with ps := ps &&& psImplemented }
  if haltLineAsserted (← get) then enterOdt else pure ()

/-- Power-up mode 2: 173000 and 340 (R803). -/
def loadBootstrap : M Unit := do
  modify fun s => { s with regs := { s.regs with pc := 0o173000 }, ps := 0o000340 }
  if haltLineAsserted (← get) then enterOdt else pure ()

/-- `power_up_action()` of R803, with the PS cleared. After a HALT that waited for BPOK H the PS is cleared too, as R803 begins,
where R810 has the registers keep their values, and the requests that are pending stay, of which R810 does not speak (DESIGN
CHOICE, log 57). -/
def powerUpAction (s : State) : State :=
  let s := { s with ps := 0, run := .running }
  match s.cfg.powerUpMode with
  | .mode3 => performTrap { vector := vectorReserved, kind := .ordinary } s
  | mode =>
    let m := match mode with
      | .mode0 => loadRestart
      | .mode1 => enterOdt
      | _ => loadBootstrap
    match m s with
    | .ok _ s' => s'
    | .error stop s' => { s' with pend := { s'.pend with trap := some stop.request } }

end Sys2Proof.Machine
end

