-- ==== Sys2Proof/Machine/Service.lean ====
section
/-! DEFINITION. What happens between instructions: the inputs of one step, the interrupt requests, and the service state
(spec/60_exceptions.md sections 1, 5, 6 and 7). -/

namespace Sys2Proof.Machine

/-- A character arrives: it replaces what is in RBUF, the error bits are those it arrives with, and an unread predecessor
is an overrun too (R753). -/
def Slu.receive (x : Slu) (c : Byte) (frm par ovr : Bool) : Slu :=
  x.settle { x with rbuf := c, frm := frm, par := par, ovr := ovr || x.rxDone, rxDone := true }

/-- One step of the transmitter: a character in the holding buffer goes on the line when its time is up, and TX RDY is set
again (R754, log 39). -/
def Slu.transmit (x : Slu) : Slu :=
  if x.txRdy then x
  else
    match x.txTimer with
    | 0 => x.settle { x with txRdy := true, sent := x.sent ++ [x.tbuf] }
    | n + 1 => { x with txTimer := n }

/-- The transmitters move on while there is dc power; a character still being sent when it goes is lost (R754,
spec/70_reset_and_hazards.md R810, R812). -/
def State.transmitted (s : State) : State :=
  if s.run = .poweredDown then s else { s with slu1 := s.slu1.transmit, slu2 := s.slu2.transmit }

/-- What one input does (log 43). A break on the console line asks for a halt from its framing error to the input that ends it,
over later characters, BINIT and loss of power (R755, DESIGN CHOICE, log 62). -/
def applyInput (i : Input) (s : State) : State :=
  match i with
  | .quiet => s
  | .receive u c frm par ovr =>
    let t := s.withSlu u ((s.slu u).receive c frm par ovr)
    if u = .console && frm && s.cfg.breakHalt then { t with lines := { t.lines with breakHalt := true } } else t
  | .breakEnd => { s with lines := { s.lines with breakHalt := false } }
  | .clockEdge =>
    if s.board.lcie || s.cfg.ltcForce then { s with board := { s.board with eventFlg := true } } else s
  | .bhalt b => { s with lines := { s.lines with bhalt := b } }
  | .bpok b =>
    { s with
      lines := { s.lines with bpok := b }
      pend := { s.pend with pwrdwn := s.pend.pwrdwn || (s.lines.bpok && !b) } }
  | .powerDown _ => powerDown s
  | .powerUp => if s.run = .poweredDown then powerUp s else s
  | .requests rs => { s with lines := { s.lines with requests := rs } }
  | .dma cycles => s.afterDma cycles

/-- The start of a step: the transmitters move on, the next free value is due, and one input is taken (log 43, log 51). -/
def tick (s : State) : State :=
  let t := { s.transmitted with
    free := s.free + 1, inputs := s.inputs.tail, bus := { s.bus with left := none } }
  applyInput (s.inputs.headD .quiet) t

/-- Who requests an interrupt. -/
inductive Requester where
  | clock
  | receiver (u : Unit2)
  | transmitter (u : Unit2)
  | bus (r : BusRequest)
  deriving DecidableEq, Repr

/-- A serial-line unit is there: a disabled one does not interrupt (R751). -/
def sluPresent (cfg : Config) : Unit2 → Bool
  | .console => !cfg.dl1Disable
  | .second => !cfg.dl2Disable

/-- The requests of a unit, the receiver first (R752). -/
def sluRequests (s : State) (u : Unit2) : List Requester :=
  if sluPresent s.cfg u then
    (if (s.slu u).rxReq then [.receiver u] else []) ++ (if (s.slu u).txReq then [.transmitter u] else [])
  else []

/-- The requests of bus devices on a level, the electrically closest first (R741). -/
def busRequests (s : State) (level : Nat) : List Requester :=
  (s.lines.requests.filter fun r => r.level == level).map .bus

/-- Who requests on a level, in the order of the acknowledge: the line clock before level 6 devices (D53), the on-board
units before level 4 devices (R741, R752). -/
def requestsAt (s : State) : Nat → List Requester
  | 7 => busRequests s 7
  | 6 => (if s.board.eventFlg then [.clock] else []) ++ busRequests s 6
  | 5 => busRequests s 5
  | 4 => sluRequests s .console ++ (sluRequests s .second ++ busRequests s 4)
  | _ => []

/-- The requester of the highest level and, within it, the first, with its level (R740, R741). -/
def firstRequest (s : State) : Option (Nat × Requester) :=
  [7, 6, 5, 4].findSome? fun level => (requestsAt s level).head?.map fun r => (level, r)

/-- The vector of a requester; none when its device does not reply (R723, R744, R751). A device's vector is a multiple
of 4 below 1000 (R702). -/
def requestVector (cfg : Config) : Requester → Option Word
  | .clock => some 0o100
  | .receiver .console => some 0o60
  | .transmitter .console => some 0o64
  | .receiver .second => some (if cfg.dl2Alt then 0o340 else 0o300)
  | .transmitter .second => some (if cfg.dl2Alt then 0o344 else 0o304)
  | .bus r => r.vector.map fun v => v.setWidth 16 &&& 0o774

/-- The request is withdrawn by its acknowledge (R741, R744, R750). -/
def withdraw (r : Requester) (s : State) : State :=
  match r with
  | .clock => { s with board := { s.board with eventFlg := false } }
  | .receiver u => s.withSlu u { s.slu u with rxReq := false }
  | .transmitter u => s.withSlu u { s.slu u with txReq := false }
  | .bus r => { s with lines := { s.lines with requests := s.lines.requests.erase r } }

/-- What the service state decides. -/
inductive Serviced where
  /-- Something was acted on; the next step is in the service state again. -/
  | acted (s : State)
  /-- The next instruction is fetched. -/
  | fetch (s : State)

/-- Nothing but the halt line is left: ODT, or the wait goes on, or the next instruction (R731, R755,
spec/45_misc_cc_mmu_ps.md R431). -/
def serviceHalt (s : State) : Serviced :=
  if haltLineAsserted s then
    match enterOdt s with
    | .ok _ s' => .acted s'
    | .error _ s' => .acted s'
  else if s.run = .waiting then .acted s
  else .fetch s

/-- An interrupt whose level is above the priority of the PS: its trap sequence, or nothing and the next instruction when
no vector is supplied (R723, R731, R741). -/
def serviceInterrupt (r : Requester) (s : State) : Serviced :=
  match requestVector s.cfg r with
  | some v => .acted (performTrap { vector := v, kind := .ordinary } (withdraw r s))
  | none => .fetch { s with run := .running }

/-- `service()` of R731: the condition of highest rank is acted on, one a step (R730, log 44). -/
def service (s : State) : Serviced :=
  if s.pend.trace then
    .acted (performTrap { vector := 0o14, kind := .ordinary } { s with pend := { s.pend with trace := false } })
  else if s.pend.stkovf then
    .acted (performTrap { vector := 0o4, kind := .stackOverflow } { s with pend := { s.pend with stkovf := false } })
  else if s.pend.pwrdwn then
    .acted (performTrap { vector := 0o24, kind := .ordinary } { s with pend := { s.pend with pwrdwn := false } })
  else
    match firstRequest s with
    | some (level, r) => if psPriority s.ps < level then serviceInterrupt r s else serviceHalt s
    | none => serviceHalt s

end Sys2Proof.Machine
end

