-- ==== Sys2Proof/Machine/Step.lean ====
section
/-! DEFINITION. One step of the machine: the inputs of the step, then one action of the service state, of the halt state or
of the power-up sequence, or one instruction (spec/60_exceptions.md R730, log 44). -/

namespace Sys2Proof.Machine

/-- Fetch the word at the PC and run the instruction it is; a fetch that fails is its abort's trap sequence (R700). -/
def fetchAndRun (s : State) : Host.Outcome State Fault Refusal :=
  match fetchOpcode s with
  | .ok w t => exec (decodeWord w) t
  | .error stop t => .next (performTrap stop.request t)

/-- A step of the running processor: a trap sequence that is due, the instruction after a P command, or what the service
state decides (R721, R731, spec/70_reset_and_hazards.md R847). -/
def processorStep (s : State) : Host.Outcome State Fault Refusal :=
  match s.pend.trap with
  | some req => .next (performTrap req s)
  | none =>
    if s.pend.proceed then fetchAndRun { s with pend := { s.pend with proceed := false } }
    else
      match service s with
      | .acted t => .next t
      | .fetch t => fetchAndRun t

/-- What the processor does in a step, by its run state. -/
def runStateStep (s : State) : Host.Outcome State Fault Refusal :=
  match s.run with
  | .running => processorStep s
  | .waiting => processorStep s
  | .halted => .next (odtStep s)
  | .awaitingBpok => .next (if s.lines.bpok then powerUpAction s else s)
  | .poweredDown => .next s

/-- A state in which the processor completes this many bus cycles and no more. -/
def State.losingPower (cycles : Nat) (s : State) : State := { s with bus := { s.bus with left := some cycles } }

/-- A step that the loss of dc power cuts short after some of its bus cycles: the machine is powered down, and memory is as
those cycles have left it (R810, D59, log 42). -/
def cutShort (cycles : Nat) (s : State) : State :=
  match runStateStep ((tick { s with inputs := [] }).losingPower cycles) with
  | .next t => { tick s with mem := t.mem, bus := { t.bus with left := none } }
  | _ => tick s

/-- One step. -/
def step (s : State) : Host.Outcome State Fault Refusal :=
  match s.inputs with
  | [] => if s.run = .poweredDown then .fault .poweredDown else runStateStep (tick s)
  | .powerDown cycles :: _ => .next (cutShort cycles s)
  | _ :: _ => runStateStep (tick s)

/-- The state with one word placed where a fetch at a virtual address of the current mode finds it: in memory, or in the
image behind the ROM window; an address that is neither takes nothing. -/
def State.placeWord (s : State) (va w : Word) : State :=
  match s.physicalOf va with
  | none => s
  | some pa =>
    if isIoPage pa then
      match ioDecode s.cfg pa with
      | some (.rom offset) =>
        let a := romAddr s.board.pcr offset
        { s with cfg := { s.cfg with rom := (a, lowByte w) :: (a + 1, highByte w) :: s.cfg.rom } }
      | _ => s
    else { s with mem := s.mem.writeLane (evenAddr (memoryAddr s.cfg pa)) .word w }

/-- Words placed one after the other. -/
def State.placeWords (s : State) (va : Word) : List Word → State
  | [] => s
  | w :: rest => (s.placeWord va w).placeWords (va + 2) rest

/-- The state whose memory holds, at the PC, the instruction with op-code word `w` and operand words of zeros: five words,
the longest instruction (spec/30_encoding.md R213). In a state whose next step fetches, such as `State.reset`, that step
runs it. The state after reset has its PC in the ROM window, so that it is the ROM image that changes (log 1). -/
def State.withFetchWord (s : State) (_nbits w : Nat) : State :=
  s.placeWords s.regs.pc [BitVec.ofNat 16 w, 0, 0, 0, 0]

end Sys2Proof.Machine
end

