-- ==== Sys2Proof/Safety.lean ====
section
/-! DEFINITION. What the statements mean by a sound state and by a machine that goes on. -/

namespace Sys2Proof.Machine

/-- The bits of SR0 that exist: the abort flags, mode, page and enable (spec/10_state.md R49, D6, log 10). -/
def sr0Implemented : Word := 0o160157

/-- No bit of a register is set that the register does not implement. -/
def within (mask w : Word) : Bool := w &&& ~~~mask == 0

/-- A sound state: memory is in its canonical form, and every bit the spec says reads as zero is zero (spec/10_state.md
R37, R45, R47, R49, R53, R56, R59). Every step keeps it. -/
def State.sound (s : State) : Bool :=
  s.mem.wf && within psImplemented s.ps && within sr0Implemented s.mmu.sr0 && within sr3Writable s.mmu.sr3
    && s.mmu.kpdr.all (within pdrImplemented) && s.mmu.updr.all (within pdrImplemented)
    && within fpsImplemented s.fpp.fps && within pcrWritable s.board.pcr

/-- A request held by an interrupt channel stands on an enable and a flag that are both set (spec/60_exceptions.md R750). -/
def Slu.requestsJustified (x : Slu) : Bool := (!x.rxReq || (x.rxDone && x.rxIE)) && (!x.txReq || (x.txRdy && x.txIE))

/-- An instruction has run to its end and left `t`: the trace request is the T bit it leaves (spec/60_exceptions.md R712). -/
def completed (t : State) : Host.Outcome State Fault Refusal := .next (sampleTrace t)

/-- The condition codes after an instruction: as it sets them, unless it has written the PS as its destination
(spec/10_state.md R40, D5, log 9). -/
def settled (wrotePs : Bool) (k : Codes) (t : State) : State :=
  if wrotePs then t else { t with ps := psWithCodes t.ps k }

/-- The word at a location is `old` in `s`; replacing it by `new`, in memory by one read-modify-write, leaves `t`. -/
def rewritesWord (l : Loc) (s : State) (old new : Word) (wrotePs : Bool) (t : State) : Prop :=
  match l with
  | .reg r => ∃ u, readReg r s = .ok old u ∧ t = u.withReg r new ∧ wrotePs = false
  | .mem ea =>
    ∃ m g u, translate s.mode ea true s = .ok m s ∧ busGrant s = .ok ⟨⟩ g ∧ readCycle m.pa g = .ok old u
      ∧ writeBack m .word new u = .ok wrotePs t

/-- The byte form of `rewritesWord`: of a register, the low byte; its high byte stays (spec/40_addressing_modes.md R241). -/
def rewritesByte (l : Loc) (s : State) (old new : Byte) (wrotePs : Bool) (t : State) : Prop :=
  match l with
  | .reg r =>
    ∃ w u, readReg r s = .ok w u ∧ old = lowByte w ∧ writeRegByte r new u = .ok ⟨⟩ t ∧ wrotePs = false
  | .mem ea =>
    ∃ m w g u, translate s.mode ea true s = .ok m s ∧ busGrant s = .ok ⟨⟩ g ∧ readCycle m.pa g = .ok w u
      ∧ old = selectByte m.pa w ∧ writeBack m .byte (onBothLanes new) u = .ok wrotePs t

/-- The state whose next step, its inputs taken, fetches an instruction from `u`: after a P command at once, else when the
service state finds nothing to do (spec/60_exceptions.md R731, spec/70_reset_and_hazards.md R847). -/
def fetchesFrom (s u : State) : Prop :=
  (s.run ≠ .poweredDown ∨ s.inputs ≠ []) ∧ ((tick s).run = .running ∨ (tick s).run = .waiting) ∧ (tick s).pend.trap = none
    ∧ (((tick s).pend.proceed = true ∧ u = { tick s with pend := { (tick s).pend with proceed := false } })
      ∨ ((tick s).pend.proceed = false ∧ service (tick s) = .fetch u))

/-- A physical address of memory that answers without a parity error, below the I/O page (spec/20_memory.md R112, R141). -/
def plainMemory (s : State) (pa : PAddr) : Bool :=
  let a := evenAddr (memoryAddr s.cfg pa)
  !isIoPage pa && populated s.cfg a && !s.cfg.parityBad.contains a

/-- The byte address in memory of the word a physical address lies in (spec/20_memory.md R108). -/
def wordPlace (s : State) (pa : PAddr) : Nat := evenAddr (memoryAddr s.cfg pa)

/-- The state after the fetch of an op-code word (spec/10_state.md R28, R52). -/
def afterFetch (u : State) : State :=
  { u with
    regs := { u.regs with pc := u.regs.pc + 2 }
    mmu := { u.mmu with sr2 := if u.frozen then u.mmu.sr2 else u.regs.pc } }

/-- The state after a number of turns of the DMA masters, one before each bus cycle of the processor (spec/20_memory.md
R150). -/
def State.grants : Nat → State → State
  | 0, s => s
  | n + 1, s => (s.grants n).granted

/-- No DMA master takes the bus during the instruction, and power is not being lost. -/
def State.quiet (s : State) : Bool := s.bus.dma.isEmpty && s.bus.left.isNone

/-- What references that write no location leave as it was: everything but memory that DMA masters write meanwhile, the
serial-line units, whose receiver a read of RBUF empties, and the counter of free values. -/
def readOnly (s t : State) : Prop :=
  ∃ n, t = { s.grants n with slu1 := t.slu1, slu2 := t.slu2, free := t.free }

/-- The cell that holds the R6 of a mode (spec/10_state.md R23). -/
def spCell (g : Regs) : Mode → Word
  | .kernel => g.ksp
  | .reserved => g.ssp
  | .illegal => g.xsp
  | .user => g.usp

/-- The cell that holds a register, R6 being that of a mode. -/
def regCell (g : Regs) (m : Mode) : Reg → Word
  | .r0 => g.r0
  | .r1 => g.r1
  | .r2 => g.r2
  | .r3 => g.r3
  | .r4 => g.r4
  | .r5 => g.r5
  | .sp => spCell g m
  | .pc => g.pc

/-- The registers of `g` and `g'` hold the same but for those of a list; of a listed R6 only the cell of mode `m` may
differ. -/
def sameRegsBut (changed : List Reg) (m : Mode) (g g' : Regs) : Prop :=
  (∀ r, r ∉ changed → regCell g' m r = regCell g m r) ∧ ∀ m', m' ≠ m → spCell g' m' = spCell g m'

/-! Taking an exception. -/

/-- Steps 2 and 3 of a trap sequence: the PS of the vector but for its previous mode, which is the old current mode; on the
emergency stack R6 of the new mode is 4 (spec/60_exceptions.md R720, R722). -/
def trapLoaded (kind : TrapKind) (newPs : Word) (s : State) : State :=
  let t : State := { s with ps := (newPs &&& 0o140777) ||| ((s.ps &&& 0o140000) >>> 2) }
  if kind = .emergency then t.withReg .sp 4 else t

/-- A push of a trap sequence, in the space of the mode it has loaded, answers `r`; an ordinary sequence notes the kernel
stack limit (spec/60_exceptions.md R715, R720). -/
def trapPushes (kind : TrapKind) (v : Word) (s : State) (r : EStateM.Result Stop State Bool) : Prop :=
  ∃ sp u, readReg .sp s = .ok sp u
    ∧ let w := u.withReg .sp (sp - 2)
      writeWord (sp - 2) v
        (if kind = .ordinary ∧ w.mode = .kernel ∧ (sp - 2).toNat < 0o400 then
          { w with pend := { w.pend with stkovf := true } } else w) = r

/-! Floating point. -/

/-- Where a floating-point destination, not read, is, and the state its evaluation leaves: one of AC0 to AC5, or an address
(`fp_dst`, spec/46_fp_state.md R481 to R484). -/
def fpOperandAt (fmt : Fmt) (o : Operand) (s : State) (l : FpLoc) (t : State) : Prop :=
  if o.mode = .register then t = s ∧ ∃ n, accOf o.reg = some n ∧ l = .acc n else fpAddress fmt.bytes o s = .ok l t

/-- An accumulator as an instruction of a format reads it (spec/46_fp_state.md R477). -/
def accRead (fmt : Fmt) (n : Fin 6) (s : State) : Quad := fmt.cut s.fpp.ac[n]

/-- Where a floating-point operand is, its value, and the state after the read: one of AC0 to AC5, or an operand in memory
(`fp_src`, spec/46_fp_state.md R481 to R484). -/
def fpSourceAt (fmt : Fmt) (o : Operand) (s : State) (l : FpLoc) (v : Quad) (t : State) : Prop :=
  if o.mode = .register then t = s ∧ ∃ n, accOf o.reg = some n ∧ l = .acc n ∧ v = accRead fmt n s
  else fpSource fmt o s = .ok (l, v) t

/-- The state with an accumulator written in a format: an F write keeps the low half (spec/46_fp_state.md R477). -/
def accWritten (fmt : Fmt) (n : Fin 6) (v : Quad) (s : State) : State :=
  { s with fpp := { s.fpp with ac := s.fpp.ac.set n (acMerge fmt s.fpp.ac[n] v) } }

/-- The state with FPS<3:0> set (spec/46_fp_state.md R478). -/
def fccSet (k : Codes) (s : State) : State :=
  { s with fpp := { s.fpp with fps := (s.fpp.fps &&& 0o177760) ||| k.toWord } }

/-- The codes a floating value sets: its sign, whether its exponent field is 0, and FV (spec/46_fp_state.md R478). -/
def fccOfValue (v : Quad) (fv : Bool) : Codes :=
  { n := v.getLsbD 63, z := v.extractLsb' 55 8 == 0, v := fv, c := false }

/-- The end of a floating-point instruction that raises an exception, which began at `start` and has left `t`: FER, FEC and
FEA are set, FEA with the address of the op-code word; with FID set the instruction completes, else it traps through 244
(spec/46_fp_state.md R490, R492). -/
def fpRaised (start t : State) (e : FpError) : Host.Outcome State Fault Refusal :=
  let u : State :=
    { t with fpp := { t.fpp with fps := t.fpp.fps ||| 0o100000, fec := e.code, fea := start.regs.pc - 2 } }
  if t.fpp.fps.getLsbD 14 then completed u
  else .next (completeTrap (performTrap { vector := 0o244, kind := .ordinary } u))

/-- The rational number a floating value stands for (spec/46_fp_state.md R473). -/
def fpValue (v : Quad) : ℚ := fpMantissa v * (2 : ℚ) ^ ((fpExp v : Int) - 184)

/-! Commercial instructions. -/

/-- The next in-line words are fetched one after the other (spec/48_cis_character.md R588). -/
def fetchesWords : List Word → State → State → Prop
  | [], s, t => t = s
  | w :: rest, s, t => ∃ u, fetchWord s = .ok w u ∧ fetchesWords rest u t

/-- One of the next `n` in-line words cannot be fetched; its reference leaves `t`. -/
def fetchFails (k : AbortKind) : Nat → State → State → Prop
  | 0, _, _ => False
  | n + 1, s, t => fetchWord s = .error (.abort k) t ∨ ∃ w u, fetchWord s = .ok w u ∧ fetchFails k n u t

/-- A word of one of the descriptors at these addresses, read in this order, cannot be read; its reference leaves `t`. -/
def descsFail (k : AbortKind) : List Word → State → State → Prop
  | [], _, _ => False
  | a :: rest, s, t =>
    readWord a s = .error (.abort k) t ∨ ∃ x u, readWord a s = .ok x u
      ∧ (readWord (a + 2) u = .error (.abort k) t ∨ ∃ y v, readWord (a + 2) u = .ok y v ∧ descsFail k rest v t)

/-- The end of a commercial instruction: its codes, and PS<8> cleared (spec/48_cis_character.md R590). -/
def cisEnd (wrotePs : Bool) (k : Codes) (t : State) : State :=
  let u := settled wrotePs k t
  { u with ps := u.ps &&& 0o177377 }

/-- The codes of a comparison of two unsigned numbers, as CMP sets them (spec/42_double_operand.md R333). -/
def cmpCodes {n : Nat} (a b : BitVec n) : Codes :=
  { n := (a - b).msb, z := a == b, v := a.msb != b.msb && b.msb == (a - b).msb, c := decide (a.toNat < b.toNat) }

/-- The state with words in the first registers, in order. -/
def withWords (t : State) : List (Reg × Word) → State
  | [] => t
  | (r, w) :: rest => withWords (t.withReg r w) rest

end Sys2Proof.Machine
end

