-- ==== Sys2Proof/Certificates/Slice0/Obligations.lean ====
section
/-! DEFINITION. The statements about the machine. OBLIGATIONS.json says of each what it formalises. -/

open Sys2Proof Sys2Proof.Machine

/-! Encoding. -/

/-- Decoding the bytes of any well-formed instruction gives it back, and the bytes after it (spec/30_encoding.md). -/
def Obligations.DecodeOfEncode : Prop :=
  ∀ (i : Instr) (rest : List Byte), i.wellFormed = true → decode (encodeBytes i ++ rest) = .ok (i, rest)

/-- Every word is the op-code word of exactly the instruction it decodes to: no two instructions share a word, and a
reserved word is decoded as reserved (spec/30_encoding.md R221). -/
def Obligations.EncodeOfDecode : Prop :=
  ∀ w : Word, (decodeWord w).wellFormed = true ∧ encodeWord (decodeWord w) = w

/-- Words that spec/95_test_vectors.md writes out, low byte first as memory holds them. -/
def Obligations.DecodeSamples : Prop :=
  decode [0x83, 0x0A] = .ok (.inc ⟨.register, .r3⟩, [])
    ∧ decode [0x84, 0x60] = .ok (.add ⟨.register, .r2⟩ ⟨.register, .r4⟩, [])
    ∧ decode [0x17, 0x70] = .ok (.mul .r0 ⟨.autoinc, .pc⟩, [])
    ∧ decode [0xF7, 0x09, 0x3C, 0x00] = .ok (.jsr .pc ⟨.index, .pc⟩, [0x3C, 0x00])
    ∧ decode [0x03, 0x7E] = .ok (.sob .r0 3, [])
    ∧ decode [0xFF, 0x01] = .ok (.br 0xFF, [])
    ∧ decode [0x01, 0xF4] = .ok (.addf .ac0 ⟨.register, .r1⟩, [])
    ∧ decode [0x58, 0x7C] = .ok (.movci, [])
    ∧ decode [0x38, 0x7C] = .ok (.addp, [])
    ∧ decode [0x08, 0x00] = .ok (.reserved 0x0008, [])

/-! The machine as a whole. -/

/-- When the bytes in memory at the program counter decode to an instruction, a step that fetches runs it: `step` is `exec`
of that instruction on the state whose PC has moved past the word and whose SR2 has taken its address, unless an abort flag
freezes SR2. The DMA masters have had the bus before the fetch, so that the bytes are those they left (R150, log 19). SR2
takes the address of the op-code word by the spec's own reading of "instruction fetch" (R52). -/
def Obligations.StepRunsDecoded : Prop :=
  ∀ (s u : State) (m : Mapped) (i : Instr), fetchesFrom s u →
    translate u.mode u.regs.pc false u = .ok m u → plainMemory u m.pa = true →
    let g := u.granted
    decode [g.mem.read (wordPlace u m.pa), g.mem.read (wordPlace u m.pa + 1)] = .ok (i, []) →
    step s = exec i (afterFetch g)

/-- Every instruction has a next state in every state, and a step lacks one only when dc power is off and nothing more
comes from outside. That an unpredictable effect is some next state is the model's reading of it (log 34); that the machine
without power has no step once its inputs are used up is the model's choice (log 49, log 43). -/
def Obligations.NothingStops : Prop :=
  (∀ (i : Instr) (s : State), ∃ t, exec i s = .next t)
    ∧ ∀ s : State, (∃ t, step s = .next t) ↔ ¬(s.run = .poweredDown ∧ s.inputs = [])

/-- Every step keeps a sound state sound: memory canonical, and every unimplemented bit of PS, SR0, SR3, the PDRs, FPS
and PCR zero. That PS<11:9>, SR0<12:7,4> and FPS<13,12,4> are always 0 is the spec's choice (D3, D6, D7; log 7, 10,
11). -/
def Obligations.StepKeepsSound : Prop :=
  ∀ s t : State, s.sound = true → step s = .next t → t.sound = true

/-- No step changes the platform's parameters, and every step keeps the interrupt channels justified: a request only on a
set enable and a set flag (spec/60_exceptions.md R750). -/
def Obligations.StepKeepsConfigAndChannels : Prop :=
  ∀ s t : State, step s = .next t →
    t.cfg = s.cfg
      ∧ (s.slu1.requestsJustified = true → s.slu2.requestsJustified = true →
        t.slu1.requestsJustified = true ∧ t.slu2.requestsJustified = true)

/-- The state after reset: what the spec states of it (spec/10_state.md R68, R80), PC and PS of power-up mode 2, the
MMU disabled, the board registers clear, both transmitters ready and every enable and flag clear; and it is sound,
with justified interrupt channels. Power-up mode 2 and the factory jumpers are the parameters State.reset has (log 3); that
EVENT FLG is clear after power-up is the spec's decision D10 (R72, log 14). -/
def Obligations.ResetValues : Prop :=
  State.reset.regs.pc = 0o173000 ∧ State.reset.ps = 0o000340 ∧ State.reset.mmu.sr0 = 0 ∧ State.reset.mmu.sr3 = 0
    ∧ State.reset.board.pcr = 0 ∧ State.reset.board.rwr = 0 ∧ State.reset.board.display = 0
    ∧ State.reset.board.lcie = false ∧ State.reset.board.eventFlg = false
    ∧ (∀ u : Unit2, (State.reset.slu u).rcsr = 0 ∧ (State.reset.slu u).tcsr = 0o200)
    ∧ State.reset.sound = true ∧ State.reset.slu1.requestsJustified = true ∧ State.reset.slu2.requestsJustified = true

/-! Operands. -/

/-- Registers and locations as instructions read and write them, R6 being that of the current mode (spec/10_state.md R21, R23,
spec/40_addressing_modes.md R241, R262). Then where each addressing mode finds its operand and what it does to its register
(R244 to R256): registers step by the operand's size, by 2 for a byte through R6 or the PC, by 2 in the deferred modes; an
index word is fetched before the register is read, so that the PC counts past it. That R6 steps by 2 in every byte
mode and the pointer register steps before its word is read is the spec's reading (D23, D14; log 23, 18); that both
autodecrement modes note the kernel stack limit is its decision D50 (log 36); that a byte immediate at an odd PC is the low byte
of the word there, as R214 and R250 say and not the formula of R240, is the model's choice (log 61). -/
def Obligations.OperandForms : Prop :=
  (∀ (s : State) (r : Reg) (x : Word),
    ((r = .sp → s.mode ≠ .illegal) → readReg r s = .ok (regCell s.regs s.mode r) s)
      ∧ s.withReg r x = { s with regs := (s.withReg r x).regs } ∧ regCell (s.withReg r x).regs s.mode r = x
      ∧ sameRegsBut [r] s.mode s.regs (s.withReg r x).regs ∧ writeLoc (.reg r) x s = .ok false (s.withReg r x)) ∧
  (∀ (s u : State) (r : Reg) (a : Word) (b : Byte), readReg r s = .ok a u →
    readLoc (.reg r) s = .ok a u ∧ readLocByte (.reg r) s = .ok (a.extractLsb' 0 8) u
      ∧ writeLocByte (.reg r) b s = .ok false (u.withReg r (a.extractLsb' 8 8 ++ b))) ∧
  (∀ (s : State) (ea w : Word) (b : Byte),
    readLoc (.mem ea) s = readWord ea s ∧ readLocByte (.mem ea) s = readByte ea s
      ∧ writeLoc (.mem ea) w s = writeWord ea w s ∧ writeLocByte (.mem ea) b s = writeByte ea b s) ∧
  (∀ (s t : State) (o : Operand) (l : Loc),
    (evalField 2 o s = .ok l t →
      (∀ v u, readLoc l t = .ok v u → operandWord o s = .ok v u)
        ∧ match l with
          | .reg r => ∃ x : Source Word, sourceWord o s = .ok x t ∧ ∀ u, x.word u = readReg r u
          | .mem ea => ∀ v u, readWord ea t = .ok v u → ∃ x, sourceWord o s = .ok x u ∧ ∀ w, x.word w = .ok v w)
      ∧ (evalField 1 o s = .ok l t →
        match l with
        | .reg r => ∃ x : Source Byte, sourceByte o s = .ok x t ∧ ∀ u, x.byte u = readLocByte (.reg r) u
        | .mem ea => ∀ v u, readByte ea t = .ok v u → ∃ x, sourceByte o s = .ok x u ∧ ∀ w, x.byte w = .ok v w)) ∧
  ∀ (sz : Nat) (r : Reg) (s u : State) (a : Word), readReg r s = .ok a u →
    let step : Word := BitVec.ofNat 16 (if sz = 1 ∧ (r = .sp ∨ r = .pc) then 2 else sz)
    let noted (x : Word) (t : State) : State :=
      if r = .sp ∧ t.mode = .kernel ∧ x.toNat < 0o400 then { t with pend := { t.pend with stkovf := true } } else t
    evalField sz ⟨.register, r⟩ s = .ok (.reg r) s
      ∧ evalField sz ⟨.registerDeferred, r⟩ s = .ok (.mem a) u
      ∧ evalField sz ⟨.autoinc, r⟩ s
          = .ok (.mem (if sz = 1 ∧ r = .pc then a &&& 0o177776 else a)) (u.withReg r (a + step))
      ∧ evalField sz ⟨.autodec, r⟩ s = .ok (.mem (a - step)) (noted (a - step) (u.withReg r (a - step)))
      ∧ (∀ p t, readWord a (u.withReg r (a + 2)) = .ok p t → evalField sz ⟨.autoincDeferred, r⟩ s = .ok (.mem p) t)
      ∧ (∀ p t, readWord (a - 2) (noted (a - 2) (u.withReg r (a - 2))) = .ok p t →
          evalField sz ⟨.autodecDeferred, r⟩ s = .ok (.mem p) t)
      ∧ ∀ (q v : State) (x b : Word), fetchWord s = .ok x q → readReg r q = .ok b v →
        evalField sz ⟨.index, r⟩ s = .ok (.mem (b + x)) v
          ∧ ∀ p t, readWord (b + x) v = .ok p t → evalField sz ⟨.indexDeferred, r⟩ s = .ok (.mem p) t

/-- Evaluating an operand field changes the register it names, the PC, and perhaps the pending stack overflow; it changes no
other register and nothing else of the state, but what reads of its words do: DMA masters write memory before its bus cycles
(R150, log 19), a read of RBUF empties the receiver of a serial-line unit (and drops a transmitter's request that has no
flag and enable, which no run reaches), and a free value moves the counter of them. Reading the operand changes nothing but
that. -/
def Obligations.OperandFrame : Prop :=
  ∀ (sz : Nat) (o : Operand) (s t : State) (l : Loc), evalField sz o s = .ok l t →
    let emptied (s t : State) : Prop :=
      ∀ x : Unit2,
        let y := s.slu x
        t.slu x = y ∨ t.slu x = { y with rxDone := false, rxReq := false, txReq := y.txReq && y.txRdy && y.txIE }
    (∃ n, t.mem = (s.grants n).mem ∧ t.bus = (s.grants n).bus) ∧ (s.quiet = true → t.mem = s.mem)
      ∧ t.ps = s.ps ∧ t.mmu = s.mmu ∧ t.fpp = s.fpp ∧ t.board = s.board ∧ t.cfg = s.cfg ∧ t.run = s.run
      ∧ t.odt = s.odt ∧ t.lines = s.lines ∧ t.inputs = s.inputs ∧ emptied s t
      ∧ t.pend = { s.pend with stkovf := t.pend.stkovf } ∧ (o.reg ≠ .sp → t.pend.stkovf = s.pend.stkovf)
      ∧ sameRegsBut [o.reg, .pc] s.mode s.regs t.regs
      ∧ ((o.mode = .register ∨ o.mode = .registerDeferred) →
        t.regs = s.regs ∧ t.slu1 = s.slu1 ∧ t.slu2 = s.slu2)
      ∧ (∀ w u, readLoc l t = .ok w u → readOnly t u ∧ emptied t u)
      ∧ ∀ b u, readLocByte l t = .ok b u → readOnly t u ∧ emptied t u

/-! Memory and the memory management unit. -/

/-- Reads of memory through the mapping of the current mode: a word is the even byte and, above it, the odd one; a byte is
the byte the address names; nothing changes, the DMA masters having had the bus just before (spec/20_memory.md R100, R105,
R150). A word reference at an odd address, be it a read or a write, is the reference at the even address below it: no trap,
in no case; so reads R108 by the spec's choice D12 (log 16). -/
def Obligations.LoadFromMemory : Prop :=
  (∀ (s g : State) (va : Word) (m : Mapped), busGrant s = .ok ⟨⟩ g → translate s.mode va false s = .ok m s →
    plainMemory s m.pa = true →
    readWord va s = .ok (g.mem.read (wordPlace s m.pa + 1) ++ g.mem.read (wordPlace s m.pa)) g
      ∧ readByte va s = .ok (g.mem.read (memoryAddr s.cfg m.pa)) g) ∧
  ∀ (s : State) (va w : Word), va.getLsbD 0 = false →
    readWord (va + 1) s = readWord va s ∧ writeWord (va + 1) w s = writeWord va w s

/-- Writes to memory through the mapping of the current mode: exactly the bytes of the word, or the byte named, take the
value; every other byte stays as the DMA masters left it just before; of the rest of the state only the W bit of the page
register used is set (spec/20_memory.md R106, R131, R150). A read-modify-write finds the word, or the byte, that is there and
leaves what the write of its result leaves (R104). That the word forms do the same at an odd address is the spec's choice D12
of R108 (log 16). -/
def Obligations.StoreToMemory : Prop :=
  ∀ (s g : State) (va w : Word) (b : Byte) (m : Mapped), s.mem.wf = true → busGrant s = .ok ⟨⟩ g →
    translate s.mode va true s = .ok m s → plainMemory s m.pa = true →
    let marked : Mmu := match m.page with
      | none => s.mmu
      | some (p, n) => s.mmu.withPdr p n (s.mmu.pdr p n ||| 0o100)
    (∃ t, writeWord va w s = .ok false t ∧ t.mem.read (wordPlace s m.pa) = w.extractLsb' 0 8
        ∧ t.mem.read (wordPlace s m.pa + 1) = w.extractLsb' 8 8
        ∧ (∀ a, a ≠ wordPlace s m.pa → a ≠ wordPlace s m.pa + 1 → t.mem.read a = g.mem.read a)
        ∧ t = { g with mem := t.mem, mmu := marked }
        ∧ ∀ old p u, rewritesWord (.mem va) s old w p u ↔
          old = g.mem.read (wordPlace s m.pa + 1) ++ g.mem.read (wordPlace s m.pa) ∧ p = false ∧ u = t)
      ∧ ∃ t, writeByte va b s = .ok false t ∧ t.mem.read (memoryAddr s.cfg m.pa) = b
        ∧ (∀ a, a ≠ memoryAddr s.cfg m.pa → t.mem.read a = g.mem.read a)
        ∧ t = { g with mem := t.mem, mmu := marked }
        ∧ ∀ old p u, rewritesByte (.mem va) s old b p u ↔ old = g.mem.read (memoryAddr s.cfg m.pa) ∧ p = false ∧ u = t

/-- The DMA masters (spec/20_memory.md R109, R113, R150). Before each bus cycle of the processor they have had the bus for
the cycles due, which reach memory below the I/O page and nothing of the processor: a DATI reads a word, a DATO writes a
word or a byte, a DATIO does both with no cycle between, and one that nothing answers changes nothing. With none due the bus
is the processor's alone. That they reach no register of the board, and that cycles land before a processor's cycle or
between two steps, is the model's (log 21, log 19). -/
def Obligations.DmaTurn : Prop :=
  ∀ s : State,
    (s.bus.left ≠ some 0 → busGrant s = .ok ⟨⟩ s.granted)
      ∧ (let t := s.afterDma (s.bus.dma.headD [])
         s.granted = { s with
          mem := t.mem, bus := { dma := s.bus.dma.tail, seen := t.bus.seen, left := s.bus.left.map (· - 1) } })
      ∧ (s.quiet = true → s.granted = s)
      ∧ (∀ cs rest, s.inputs = .dma cs :: rest → tick s = (tick { s with inputs := .quiet :: rest }).afterDma cs)
      ∧ s.afterDma [] = s ∧ (∀ c cs, s.afterDma (c :: cs) = (s.afterDma [c]).afterDma cs)
      ∧ ∀ (pa : PAddr) (size : Size) (v : Word),
        let reached : Prop := isIoPage pa = false ∧ populated s.cfg (wordPlace s pa) = true
        let seeing (w : Option Word) : State := { s with bus := { s.bus with seen := s.bus.seen ++ [w] } }
        (reached → s.afterDma [.dati pa] = seeing (some (s.mem.read (wordPlace s pa + 1) ++ s.mem.read (wordPlace s pa))))
          ∧ (¬reached → s.afterDma [.dati pa] = seeing none ∧ s.afterDma [.dato pa size v] = s)
          ∧ s.afterDma [.datio pa size v] = (s.afterDma [.dati pa]).afterDma [.dato pa size v]
          ∧ (s.mem.wf = true → reached →
            (let t := s.afterDma [.dato pa .word v]
             t = { s with mem := t.mem } ∧ t.mem.read (wordPlace s pa) = v.extractLsb' 0 8
              ∧ t.mem.read (wordPlace s pa + 1) = v.extractLsb' 8 8
              ∧ ∀ a, a ≠ wordPlace s pa → a ≠ wordPlace s pa + 1 → t.mem.read a = s.mem.read a)
              ∧ (let t := s.afterDma [.dato pa .byte v]
                 t = { s with mem := t.mem }
                  ∧ t.mem.read (memoryAddr s.cfg pa) = (if pa.getLsbD 0 then v.extractLsb' 8 8 else v.extractLsb' 0 8)
                  ∧ ∀ a, a ≠ memoryAddr s.cfg pa → t.mem.read a = s.mem.read a))

/-- The special registers as a program reaches them, the MMU disabled (spec/10_state.md R40 to R62, R775). A word, a low
byte or a high byte written reaches the bits the register implements, and no other register: the PS but for T; a page
address or descriptor register, which clears the W bit of its pair; SR0<15:13> and <0>; SR3<5:4>; the page control, the
maintenance, the display and the clock register. A byte read gives its half of the word. SR1 reads 0; SR1, SR2 and the ROM
window take no write. That PS<11:9>, SR0 and SR3 have no other bits is D3, D6 (log 7, 10); that a read of the page control
register is free and that a write to the ROM window is answered and ignored is D8 (spec/20_memory.md R144, log 12); that
clearing LKS<6> leaves EVENT FLG is D10 (R72, log 14). -/
def Obligations.SpecialRegisters : Prop :=
  ∀ (s g : State) (w : Word) (b : Byte), busGrant s = .ok ⟨⟩ g → s.mmu.sr0.getLsbD 0 = false →
    let merged (mask old v : Word) : Word := (old &&& ~~~mask) ||| (v &&& mask)
    let writable (a mask old : Word) (isPs : Bool) (updated : Word → State) : Prop :=
      writeWord a w s = .ok isPs (updated (merged mask old w))
        ∧ writeByte a b s = .ok isPs (updated (merged (mask &&& 0o377) old (b.setWidth 16)))
        ∧ writeByte (a + 1) b s = .ok isPs (updated (merged (mask &&& 0o177400) old (b.setWidth 16 <<< 8)))
    let ignores (a : Word) : Prop :=
      writeWord a w s = .ok false g ∧ writeByte a b s = .ok false g ∧ writeByte (a + 1) b s = .ok false g
    let reads (a v : Word) : Prop :=
      readWord a s = .ok v g ∧ readByte a s = .ok (v.extractLsb' 0 8) g ∧ readByte (a + 1) s = .ok (v.extractLsb' 8 8) g
    let mmuIs (m : Mmu) : State := { g with mmu := m }
    let boardIs (x : Board) : State := { g with board := x }
    reads 0o177776 s.ps ∧ writable 0o177776 0o170757 s.ps true (fun x => { g with ps := x })
      ∧ (∀ (p : PageSet) (n : Fin 8),
        let base : Word := match p with
          | .kernel => 0o172300
          | .user => 0o177600
        let descriptor : Word := base + BitVec.ofNat 16 (2 * n.val)
        let address : Word := descriptor + 0o40
        reads descriptor (s.mmu.pdr p n) ∧ reads address (s.mmu.par p n)
          ∧ writable descriptor 0o77416 (s.mmu.pdr p n) false (fun x => mmuIs (s.mmu.withPdr p n (x &&& ~~~0o100)))
          ∧ writable address 0o177777 (s.mmu.par p n) false
            (fun x => mmuIs ((s.mmu.withPar p n x).withPdr p n (s.mmu.pdr p n &&& ~~~0o100))))
      ∧ reads 0o177572 s.mmu.sr0 ∧ writable 0o177572 0o160001 s.mmu.sr0 false (fun x => mmuIs { s.mmu with sr0 := x })
      ∧ reads 0o177574 0 ∧ ignores 0o177574 ∧ reads 0o177576 s.mmu.sr2 ∧ ignores 0o177576
      ∧ reads 0o172516 s.mmu.sr3 ∧ writable 0o172516 0o60 s.mmu.sr3 false (fun x => mmuIs { s.mmu with sr3 := x })
      ∧ (s.cfg.bdkDisable = false →
        (let v := Config.freeWord s.free
         let t : State := { g with free := s.free + 1 }
         readWord 0o177520 s = .ok v t ∧ readByte 0o177520 s = .ok (v.extractLsb' 0 8) t
          ∧ readByte 0o177521 s = .ok (v.extractLsb' 8 8) t)
          ∧ writable 0o177520 0o37477 s.board.pcr false (fun x => boardIs { s.board with pcr := x })
          ∧ reads 0o177522 s.board.rwr ∧ writable 0o177522 0o177777 s.board.rwr false (fun x => boardIs { s.board with rwr := x })
          ∧ reads 0o177524 (s.cfg.s1.setWidth 16)
          ∧ writeWord 0o177524 w s = .ok false (boardIs { s.board with display := w.extractLsb' 0 4 })
          ∧ writeByte 0o177524 b s = .ok false (boardIs { s.board with display := b.extractLsb' 0 4 })
          ∧ writeByte 0o177525 b s = .ok false g
          ∧ reads 0o177546 (if s.board.lcie = true ∨ s.cfg.ltcForce = true then 0o100 else 0)
          ∧ writeWord 0o177546 w s = .ok false (boardIs { s.board with lcie := w.getLsbD 6 })
          ∧ writeByte 0o177546 b s = .ok false (boardIs { s.board with lcie := b.getLsbD 6 })
          ∧ writeByte 0o177547 b s = .ok false g
          ∧ ∀ k < 256,
            let a : Word := 0o173000 + BitVec.ofNat 16 (2 * k)
            let page := (if k < 128 then s.board.pcr.extractLsb' 0 6 else s.board.pcr.extractLsb' 8 6).toNat
            let place := page * 256 + 2 * k % 256
            reads a (romByte s.cfg.rom (place + 1) ++ romByte s.cfg.rom place) ∧ ignores a)

/-- The physical address of a reference (spec/20_memory.md R110, R120, R132, R133): the mode of PS<15:14> selects the page
registers, kernel mode the kernel set, user mode the user set, and modes 01 and 10 none (R124, D4, log 8); without
relocation the address itself, the top 8K bytes being the I/O page; with 18-bit mapping PAF plus block number modulo 2^12,
the top 8K bytes of 2^18 being the I/O page; with 22-bit mapping PAF plus block number modulo 2^16. The truncations are the
spec's choice D13 (log 17). -/
def Obligations.Relocation : Prop :=
  (pageSetOf .kernel = some .kernel ∧ pageSetOf .user = some .user ∧ pageSetOf .reserved = none ∧ pageSetOf .illegal = none) ∧
  (∀ s : State, s.mode.bits = s.ps.extractLsb' 14 2 ∧ (s.mode = .kernel ↔ s.ps.extractLsb' 14 2 = 0)
    ∧ (s.mode = .user ↔ s.ps.extractLsb' 14 2 = 3)) ∧
  (∀ (m : Mmu) (n : Fin 8), m.par .kernel n = m.kpar[n] ∧ m.par .user n = m.upar[n]) ∧
  ∀ (s t : State) (mode : Mode) (va : Word) (write : Bool) (m : Mapped), translate mode va write s = .ok m t →
    t = s
      ∧ (s.mmu.sr0.getLsbD 0 = false →
          m.pa.toNat = if va.toNat < 0o160000 then va.toNat else va.toNat + 0o17600000)
      ∧ (s.mmu.sr0.getLsbD 0 = true → ∃ (p : PageSet) (n : Fin 8), pageSetOf mode = some p ∧ n.val = va.toNat / 8192
          ∧ m.page = some (p, n)
          ∧ let block := (s.mmu.par p n).toNat + va.toNat / 64 % 128
            m.pa.toNat =
              if s.mmu.sr3.getLsbD 4 then block % 65536 * 64 + va.toNat % 64
              else
                let pa := block % 4096 * 64 + va.toNat % 64
                if pa < 0o760000 then pa else pa + 0o17000000)

/-- With relocation enabled a reference is aborted exactly when its page is nonresident (ACF 00 or 10), or its block number
is beyond the page length (above the PLF of an upward page, below that of a downward one), or it writes a read-only page
(ACF 01) (spec/20_memory.md R125, R126). Kernel mode has the kernel page registers, user mode the user ones (R120). That
modes 01 and 10 have none, and that a mode without page registers always aborts, is the spec's decision D4, in R124 (log 8).
What an aborted reference leaves: nothing but SR0 changes. SR0<15> is raised for a nonresident page, SR0<14> for a block
outside the page length, SR0<13> for a write to a read-only page, each for its own condition, and the flags that were set
stay; mode and page are loaded when no flag was set before and stay frozen when one was; the enable bit and all else stay
(spec/20_memory.md R125 to R128, spec/10_state.md R49). SR0<15> for a mode without page registers is the spec's decision D4
(log 8); that new flags are still ORed in while the fields are frozen is its choice D14 (log 18). -/
def Obligations.MmuAborts : Prop :=
  (pageSetOf .kernel = some .kernel ∧ pageSetOf .user = some .user ∧ pageSetOf .reserved = none ∧ pageSetOf .illegal = none) ∧
  (∀ (m : Mmu) (n : Fin 8), m.pdr .kernel n = m.kpdr[n] ∧ m.pdr .user n = m.updr[n]) ∧
  (∀ (s : State) (mode : Mode) (va : Word) (write : Bool), s.mmu.sr0.getLsbD 0 = true →
    ((∃ m, translate mode va write s = .ok m s) ↔
      ∃ (p : PageSet) (n : Fin 8), pageSetOf mode = some p ∧ n.val = va.toNat / 8192
        ∧ let pdr := (s.mmu.pdr p n).toNat
          let block := va.toNat / 64 % 128
          let length := pdr / 256 % 128
          (pdr / 2 % 4 = 3 ∨ (pdr / 2 % 4 = 1 ∧ write = false))
            ∧ if pdr / 8 % 2 = 1 then length ≤ block else block ≤ length)) ∧
  ∀ (s t : State) (mode : Mode) (va : Word) (write : Bool) (e : Stop) (n : Fin 8), n.val = va.toNat / 8192 →
    translate mode va write s = .error e t →
    let flags : Word := match pageSetOf mode with
      | none => 0o100000
      | some p =>
        let pdr := (s.mmu.pdr p n).toNat
        let block := va.toNat / 64 % 128
        let length := pdr / 256 % 128
        (if pdr / 2 % 4 = 0 ∨ pdr / 2 % 4 = 2 then 0o100000 else 0)
          ||| (if (if pdr / 8 % 2 = 1 then block < length else length < block) then 0o040000 else 0)
          ||| (if pdr / 2 % 4 = 1 ∧ write = true then 0o020000 else 0)
    e = .abort .mmu ∧ t = { s with mmu := { s.mmu with sr0 := t.mmu.sr0 } }
      ∧ flags ≠ 0 ∧ t.mmu.sr0 &&& 0o160000 = (s.mmu.sr0 &&& 0o160000) ||| flags
      ∧ t.mmu.sr0 &&& 0o017621 = s.mmu.sr0 &&& 0o017621
      ∧ (s.mmu.sr0 &&& 0o160000 ≠ 0 → t.mmu.sr0 &&& 0o156 = s.mmu.sr0 &&& 0o156)
      ∧ (s.mmu.sr0 &&& 0o160000 = 0 → t.mmu.sr0.extractLsb' 1 3 = va.extractLsb' 13 3
          ∧ t.mmu.sr0.extractLsb' 5 2 = mode.bits)

/-! Exceptions. -/

/-- Pushing and popping a word: R6 moves by 2, down before the write and up after the read; a push in kernel mode
below 400 notes the stack limit (spec/10_state.md R24, spec/60_exceptions.md R715). That every decrement of R6 through
a push is checked is D50 (log 36). -/
def Obligations.StackOperations : Prop :=
  ∀ (s u : State) (sp v : Word), readReg .sp s = .ok sp u →
    (∀ w t, readWord sp u = .ok w t → pop s = .ok w (t.withReg .sp (sp + 2)))
      ∧ ∀ p t,
        writeWord (sp - 2) v
          (if s.mode = .kernel ∧ (sp - 2).toNat < 0o400 then
            { u.withReg .sp (sp - 2) with pend := { u.pend with stkovf := true } }
          else u.withReg .sp (sp - 2)) = .ok p t →
        push v s = .ok p t

/-- Taking an exception (spec/60_exceptions.md R720, spec/20_memory.md R135), in any mapping: the words of the vector are
read through the kernel mapping; the new PS is that of the vector but for its previous mode, which is the old current
mode; the old PS and PC are pushed on the stack of the new mode through its mapping; the PC is that of the vector. With
those words in memory and no DMA meanwhile, everything else stays: the other registers, every other byte of memory, the
memory management unit but for the W bits of the pages pushed into, and the rest of the state but for a noted stack limit,
the end of a WAIT, and the request that is served. A reference of the sequence that fails (R721), but for a push that
times out (the emergency stack), ends it where it is, and a trap sequence through the vector of the abort is due. That
what is done stays done is the spec's decision D51, that the new sequence waits for the next step the model's (log 37);
that PS<11:9> of the vector are not loaded is its choice D3 (log 7), that both pushes note the kernel stack limit D50 (log
36). -/
def Obligations.TrapSequence : Prop :=
  let due (k : AbortKind) (t : State) : State :=
    { t with
      pend := { t.pend with
        trap := some
          { vector := match k with
              | .mmu => 0o250
              | .timeout => 0o4
              | .parity => 0o114
            kind := .ordinary } } }
  (∀ (req : TrapRequest) (s t : State) (k : AbortKind),
    readWordIn .kernel (req.vector + 2) { s with run := .running } = .error (.abort k) t →
    performTrap req s = due k t ∧ t.ps = s.ps ∧ t.regs = s.regs) ∧
  (∀ (req : TrapRequest) (s a : State) (newPs : Word),
    readWordIn .kernel (req.vector + 2) { s with run := .running } = .ok newPs a →
    let start := trapLoaded req.kind newPs a
    (∀ k t, k ≠ .timeout →
      (trapPushes req.kind a.ps start (.error (.abort k) t)
        ∨ ∃ p d, trapPushes req.kind a.ps start (.ok p d) ∧ trapPushes req.kind a.regs.pc d (.error (.abort k) t)) →
      performTrap req s = due k t)
      ∧ ∀ p d q e, trapPushes req.kind a.ps start (.ok p d) → trapPushes req.kind a.regs.pc d (.ok q e) →
        (∀ k t, readWordIn .kernel req.vector e = .error (.abort k) t → performTrap req s = due k t)
          ∧ ∀ newPc t, readWordIn .kernel req.vector e = .ok newPc t →
            performTrap req s = { t with regs := { t.regs with pc := newPc }, pend := { t.pend with trap := none } }) ∧
  ∀ (s : State) (v : Word) (m0 m1 m2 m3 : Mapped),
    let newPs := s.mem.readWord (wordPlace s m0.pa)
    let mode := psMode newPs
    let sp := spCell s.regs mode
    let t := performTrap { vector := v, kind := .ordinary } s
    s.mem.wf = true → s.quiet = true → mode ≠ .illegal →
    translate .kernel (v + 2) false s = .ok m0 s → translate mode (sp - 2) true s = .ok m1 s →
    translate mode (sp - 4) true s = .ok m2 s → translate .kernel v false s = .ok m3 s →
    (∀ m ∈ [m0, m1, m2, m3], plainMemory s m.pa = true) →
    t = { s with
        regs := t.regs, ps := t.ps, mem := t.mem, mmu := t.mmu, run := .running
        pend := { s.pend with
          trap := none
          stkovf := s.pend.stkovf
            || decide (mode = .kernel ∧ ((sp - 2).toNat < 0o400 ∨ (sp - 4).toNat < 0o400)) } }
      ∧ t.ps = (newPs &&& 0o140777) ||| ((s.ps &&& 0o140000) >>> 2)
      ∧ t.mem.readWord (wordPlace s m1.pa) = s.ps ∧ t.mem.readWord (wordPlace s m2.pa) = s.regs.pc
      ∧ t.regs.pc = t.mem.readWord (wordPlace s m3.pa)
      ∧ spCell t.regs mode = sp - 4 ∧ sameRegsBut [.sp, .pc] mode s.regs t.regs
      ∧ (∀ a, a ≠ wordPlace s m1.pa → a ≠ wordPlace s m1.pa + 1 → a ≠ wordPlace s m2.pa → a ≠ wordPlace s m2.pa + 1 →
          t.mem.read a = s.mem.read a)
      ∧ t.mmu = { s.mmu with kpdr := t.mmu.kpdr, updr := t.mmu.updr }
      ∧ ∀ p n, t.mmu.pdr p n =
          if m1.page = some (p, n) ∨ m2.page = some (p, n) then s.mmu.pdr p n ||| 0o100 else s.mmu.pdr p n

/-- What goes through a vector instead of running (spec/44_jump_subroutine_trap.md R405 to R408, spec/60_exceptions.md
R703, spec/45_misc_cc_mmu_ps.md R430, spec/30_encoding.md R217): EMT 30, TRAP 34, BPT 14, IOT 20; a reserved word,
HALT outside kernel mode or with `HALT_TRAP`, and every instruction of an option that is absent 10; JMP and JSR to a
register 4. Each is completed by its trap sequence. Which words are reserved, that the stacked PC is past the word, and what
an absent option covers are the spec's decisions D19 to D22 (log 22); that modes 01 and 10 are not kernel mode is D4 (log
8); that T is sampled after the trap sequence is the model's reading (log 35). -/
def Obligations.InstructionTraps : Prop :=
  ∀ (s : State) (code : Byte) (word : Word) (r q : Reg) (ac : Ac) (o : Operand),
    let through (v : Word) : Host.Outcome State Fault Refusal :=
      .next (completeTrap (performTrap { vector := v, kind := .ordinary } s))
    exec (.emt code) s = through 0o30 ∧ exec (.trap code) s = through 0o34 ∧ exec .bpt s = through 0o14
      ∧ exec .iot s = through 0o20 ∧ exec (.reserved word) s = through 0o10
      ∧ (s.mode ≠ .kernel → exec .halt s = through 0o10)
      ∧ (s.lines.bpok = true → s.cfg.haltTrap = true → exec .halt s = through 0o10)
      ∧ (s.cfg.fpPresent = false →
        ∀ i ∈ [.cfcc, .setf, .seti, .setd, .setl, .ldfps o, .stfps o, .stst o, .clrf o, .tstf o, .absf o, .negf o, .mulf ac o,
            .modf ac o, .addf ac o, .ldf ac o, .subf ac o, .cmpf ac o, .stf ac o, .divf ac o, .stexp ac o, .stcfi ac o,
            .stcfd ac o, .ldexp ac o, .ldcif ac o, .ldcdf ac o, .fpIllegal word],
          exec i s = through 0o10)
      ∧ (s.cfg.cisPresent = false →
        ∀ i ∈ [.l2d r, .l3d r, .movc, .movci, .movrc, .movrci, .movtc, .movtci, .locc, .locci, .skpc, .skpci, .scanc, .scanci,
            .spanc, .spanci, .cmpc, .cmpci, .matc, .matci, .addn, .addni, .subn, .subni, .cmpn, .cmpni, .cvtnl, .cvtnli,
            .cvtpn, .cvtpni, .cvtnp, .cvtnpi, .ashn, .ashni, .cvtln, .cvtlni, .addp, .addpi, .subp, .subpi, .cmpp, .cmppi,
            .cvtpl, .cvtpli, .mulp, .mulpi, .divp, .divpi, .ashp, .ashpi, .cvtlp, .cvtlpi],
          exec i s = through 0o10)
      ∧ exec (.jmp ⟨.register, r⟩) s = through 0o4 ∧ exec (.jsr q ⟨.register, r⟩) s = through 0o4

/-- RTI and RTT: the PC and then the PS are popped; in kernel mode the whole PS is loaded, in any other only PS<8>, T and
the condition codes; RTT leaves no trace request (spec/44_jump_subroutine_trap.md R409, R410, spec/10_state.md R39). That
modes 01 and 10 load what user mode does is the spec's decision D4 (log 8), that PS<11:9> are never loaded its D3 (log 7);
that RTT leaves no request even where T was set before it is the model's choice between R712 and R410 (log 54). -/
def Obligations.ReturnFromTrap : Prop :=
  ∀ (s u t : State) (pc ps : Word), pop s = .ok pc u → pop u = .ok ps t →
    let mask : Word := if s.mode = .kernel then 0o170777 else 0o437
    let after : State := { t with regs := { t.regs with pc := pc }, ps := (s.ps &&& ~~~mask) ||| (ps &&& mask) }
    exec .rti s = completed after
      ∧ exec .rtt s = .next { after with pend := { after.pend with trace := false } }

/-- A word or an operand that cannot be referenced ends its instruction: the trap sequence of the abort (250, 4 or 114) is
performed on the state the reference left (spec/60_exceptions.md R705, R706, R708, R710). So it is for the fetch of the
op-code word, which has then left SR2; a fetch, and the store of a word at the PC, has advanced the PC when the bus failed
it (R28) but not when the memory management unit aborted it (spec/00_scope.md R14); for a pointer or an index word of an
operand field; for the read of an operand, its write, and the read-modify-write of one; for a push and for a pop; for the
operands of the floating-point instructions. A failing read or write of an operand changes no register and nothing of the
PS, and stores nothing: only SR0 takes the abort, and DMA masters have had their turn (log 19). That the PC has stepped
past an immediate word of an operand field whose reference is aborted is R240's order, not R14's (log 63); that a
read-modify-write is checked as a write first is the spec's decision D14 (R125, log 18); that the codes stay is its D24
(R705, log 24), that an abandoned instruction samples no trace request D49 (log 35), that the push of JSR, MFPI and MFPD
counts for the stack limit D50 (log 36); that register 6 of MFPI and MFPD is the previous mode's R6, and that MTPI and MTPD
pop before the destination is evaluated, are D31, D32 (log 26); what STCFI stores of -2^15 and -2^31 is D38 (log 28); where
ABSF, NEGF and STEXP find sign and exponent is the spec's general knowledge (R471, G8, log 60). -/
def Obligations.OperandAbort : Prop :=
  ∀ (k : AbortKind) (s u : State) (o d : Operand) (r : Reg) (ac : Ac),
    let trapped : Host.Outcome State Fault Refusal :=
      .next (performTrap
        { vector := match k with
            | .mmu => 0o250
            | .timeout => 0o4
            | .parity => 0o114
          kind := .ordinary } u)
    let trap (is : List Instr) : Prop := ∀ i ∈ is, exec i s = trapped
    let kept (v : State) : Prop := ∃ n, u = { v.grants n with mmu := { v.mmu with sr0 := u.mmu.sr0 } }
    let rewriteFails (ea : Word) (v : State) : Prop :=
      translate v.mode ea true v = .error (.abort k) u
        ∨ ∃ m g, translate v.mode ea true v = .ok m v ∧ busGrant v = .ok ⟨⟩ g ∧ readCycle m.pa g = .error (.abort k) u
    (∀ f : State, fetchesFrom s f → fetchWord f = .error (.abort k) u →
      step s = trapped ∧ u.mmu.sr2 = f.mmu.sr2)
      ∧ (∀ (v : State) (w : Word), fetchWord v = .error (.abort k) u ∨ storeNext w v = .error (.abort k) u →
        u.regs = match k with
          | .mmu => v.regs
          | .timeout => { v.regs with pc := v.regs.pc + 2 }
          | .parity => { v.regs with pc := v.regs.pc + 2 })
      ∧ (∀ (l : Loc) (w : Word) (b : Byte) (v : State),
        (readLoc l v = .error (.abort k) u → kept v) ∧ (readLocByte l v = .error (.abort k) u → kept v)
          ∧ (writeLoc l w v = .error (.abort k) u → kept v) ∧ (writeLocByte l b v = .error (.abort k) u → kept v)
          ∧ ∀ ea, rewriteFails ea v → kept v)
      ∧ (evalField 2 o s = .error (.abort k) u →
        trap [.clr o, .com o, .inc o, .dec o, .neg o, .adc o, .sbc o, .tst o, .ror o, .rol o, .asr o, .asl o, .swab o, .sxt o,
          .mov o d, .cmp o d, .bit o d, .bic o d, .bis o d, .add o d, .sub o d, .mul r o, .div r o, .ash r o, .ashc r o,
          .xor r o, .jmp o, .jsr r o, .mfpi o, .mfpd o])
      ∧ (evalField 1 o s = .error (.abort k) u →
        trap [.clrb o, .comb o, .incb o, .decb o, .negb o, .adcb o, .sbcb o, .tstb o, .rorb o, .rolb o, .asrb o, .aslb o,
          .movb o d, .cmpb o d, .bitb o d, .bicb o d, .bisb o d, .mtps o, .mfps o])
      ∧ (∀ l s1, evalField 2 o s = .ok l s1 →
        (readLoc l s1 = .error (.abort k) u →
          trap [.tst o, .mov o d, .cmp o d, .bit o d, .bic o d, .bis o d, .add o d, .sub o d, .mul r o, .div r o, .ash r o,
            .ashc r o])
          ∧ (∀ v s2,
            (match l with
              | .reg .sp => readSpOf (psPrevious s.ps) s1 = .ok v s2
              | .reg r => readReg r s1 = .ok v s2
              | .mem ea => readWordIn (psPrevious s.ps) ea s1 = .ok v s2) →
            push v s2 = .error (.abort k) u → trap [.mfpi o, .mfpd o])
          ∧ (writeLoc l 0 s1 = .error (.abort k) u → trap [.clr o])
          ∧ (writeLoc l (if s.ps.getLsbD 3 then 0o177777 else 0) s1 = .error (.abort k) u → trap [.sxt o])
          ∧ ∀ ea, l = .mem ea →
            (rewriteFails ea s1 →
              trap [.com o, .inc o, .dec o, .neg o, .adc o, .sbc o, .ror o, .rol o, .asr o, .asl o, .swab o])
              ∧ (∀ v s2, readReg r s1 = .ok v s2 → rewriteFails ea s2 → trap [.xor r o])
              ∧ (readWordIn (psPrevious s.ps) ea s1 = .error (.abort k) u → trap [.mfpi o, .mfpd o])
              ∧ ∀ sp s2 s3 link s4, readReg .sp s1 = .ok sp s2 →
                noteStackLimit (sp - 2) (s2.withReg .sp (sp - 2)) = .ok ⟨⟩ s3 → readReg r s3 = .ok link s4 →
                writeWord (sp - 2) link s4 = .error (.abort k) u → trap [.jsr r o])
      ∧ (∀ l s1, evalField 1 o s = .ok l s1 →
        (readLocByte l s1 = .error (.abort k) u → trap [.tstb o, .movb o d, .cmpb o d, .bitb o d, .bicb o d, .bisb o d, .mtps o])
          ∧ (writeLocByte l 0 s1 = .error (.abort k) u → trap [.clrb o])
          ∧ (writeLocByte l (s.ps.extractLsb' 0 8) s1 = .error (.abort k) u → trap [.mfps o])
          ∧ ∀ ea, l = .mem ea → rewriteFails ea s1 →
            trap [.comb o, .incb o, .decb o, .negb o, .adcb o, .sbcb o, .rorb o, .rolb o, .asrb o, .aslb o])
      ∧ (∀ x s1, sourceWord o s = .ok x s1 →
        (evalField 2 d s1 = .error (.abort k) u → trap [.mov o d, .cmp o d, .bit o d, .bic o d, .bis o d, .add o d, .sub o d])
          ∧ ∀ l s2 v s3, evalField 2 d s1 = .ok l s2 → x.word s2 = .ok v s3 →
            (writeLoc l v s3 = .error (.abort k) u → trap [.mov o d])
              ∧ (readLoc l s3 = .error (.abort k) u → trap [.cmp o d, .bit o d])
              ∧ ∀ ea, l = .mem ea → rewriteFails ea s3 → trap [.bic o d, .bis o d, .add o d, .sub o d])
      ∧ (∀ x s1, sourceByte o s = .ok x s1 →
        (evalField 1 d s1 = .error (.abort k) u → trap [.movb o d, .cmpb o d, .bitb o d, .bicb o d, .bisb o d])
          ∧ ∀ l s2 v s3, evalField 1 d s1 = .ok l s2 → x.byte s2 = .ok v s3 →
            (writeLocByte l v s3 = .error (.abort k) u → trap [.movb o d])
              ∧ (readLocByte l s3 = .error (.abort k) u → trap [.cmpb o d, .bitb o d])
              ∧ ∀ ea, l = .mem ea → rewriteFails ea s3 → trap [.bicb o d, .bisb o d])
      ∧ (pop s = .error (.abort k) u → trap [.rti, .rtt, .mtpi o, .mtpd o])
      ∧ (∀ pc s1, pop s = .ok pc s1 →
        (pop s1 = .error (.abort k) u → trap [.rti, .rtt])
          ∧ (evalField 2 o s1 = .error (.abort k) u → trap [.mtpi o, .mtpd o])
          ∧ ∀ ea s2, evalField 2 o s1 = .ok (.mem ea) s2 → writeWordIn (psPrevious s.ps) ea pc s2 = .error (.abort k) u →
            trap [.mtpi o, .mtpd o])
      ∧ (∀ x s1, readReg r s = .ok x s1 → pop { s1 with regs := { s1.regs with pc := x } } = .error (.abort k) u →
        trap [.rts r])
      ∧ (∀ nn : BitVec 6,
        (let t := s.withReg .sp (s.regs.pc + BitVec.ofNat 16 (2 * nn.toNat))
         pop { t with regs := { t.regs with pc := s.regs.r5 } } = .error (.abort k) u) → trap [.mark nn])
      ∧ (s.cfg.fpPresent = true →
        let md := fpModes s.fpp.fps
        let a := accRead md.fmt (acIndex ac) s
        let i := fpTrunc a
        let limit : Int := if md.long then 2 ^ 31 else 2 ^ 15
        (o.mode ≠ .register →
          (fpAddress md.fmt.bytes o s = .error (.abort k) u → trap [.clrf o, .stf ac o])
            ∧ (fpAddress md.fmt.other.bytes o s = .error (.abort k) u → trap [.stcfd ac o])
            ∧ (fpSource md.fmt o s = .error (.abort k) u →
              trap [.tstf o, .absf o, .negf o, .mulf ac o, .modf ac o, .addf ac o, .ldf ac o, .subf ac o, .cmpf ac o,
                .divf ac o])
            ∧ (fpSource md.fmt.other o s = .error (.abort k) u → trap [.ldcdf ac o]))
          ∧ (evalField 2 o s = .error (.abort k) u → trap [.stfps o, .stexp ac o])
          ∧ (longLoc o s = .error (.abort k) u → trap [.stst o])
          ∧ (operandWord o s = .error (.abort k) u → trap [.ldfps o, .ldexp ac o])
          ∧ (readInteger md o s = .error (.abort k) u → trap [.ldcif ac o])
          ∧ (writeInteger md o (if -limit ≤ i ∧ i < limit then i else 0) s = .error (.abort k) u → trap [.stcfi ac o])
          ∧ (∀ l s1, evalField 2 o s = .ok l s1 →
            (writeLoc l s.fpp.fps s1 = .error (.abort k) u → trap [.stfps o])
              ∧ (writeLoc l (BitVec.ofInt 16 ((fpExp a : Int) - 0o200)) s1 = .error (.abort k) u → trap [.stexp ac o]))
          ∧ (∀ l s1, longLoc o s = .ok l s1 →
            writeLong (s.fpp.fec.setWidth 16) s.fpp.fea l s1 = .error (.abort k) u → trap [.stst o])
          ∧ (∀ l s1, fpOperandAt md.fmt o s l s1 →
            (writeFp md.fmt 0 l s1 = .error (.abort k) u → trap [.clrf o])
              ∧ (writeFp md.fmt a l s1 = .error (.abort k) u → trap [.stf ac o]))
          ∧ (∀ l v s2, fpSourceAt md.fmt o s l v s2 →
            (writeFp md.fmt (if fpExp v = 0 then 0 else v &&& 0x7FFFFFFFFFFFFFFF) l s2 = .error (.abort k) u → trap [.absf o])
              ∧ (writeFp md.fmt (if fpExp v = 0 then 0 else v ^^^ 0x8000000000000000) l s2 = .error (.abort k) u →
                trap [.negf o]))
          ∧ ∀ l s1, fpOperandAt md.fmt.other o s l s1 →
            writeFp md.fmt.other (fpConvert md md.fmt a).value l s1 = .error (.abort k) u → trap [.stcfd ac o])

/-- The emergency stack (spec/60_exceptions.md R722): when a push of a trap sequence times out, that sequence ends, what is
due is a trap sequence through 4 of the emergency kind, and the next step performs it; with the MMU disabled and no DMA
meanwhile it stacks the PS and the PC with R6 at 4. The stack at location 2 and its order are the spec's reading D52, and
that the new sequence waits for the next step is the model's (log 37); that its pushes note no stack limit is D50 (log 36);
the PS it loads leaves PS<11:9> out by D3 (log 7). -/
def Obligations.EmergencyStack : Prop :=
  (∀ (req : TrapRequest) (s a t : State) (newPs : Word),
    readWordIn .kernel (req.vector + 2) { s with run := .running } = .ok newPs a →
    let start := trapLoaded req.kind newPs a
    (trapPushes req.kind a.ps start (.error (.abort .timeout) t)
      ∨ ∃ p d, trapPushes req.kind a.ps start (.ok p d) ∧ trapPushes req.kind a.regs.pc d (.error (.abort .timeout) t)) →
    performTrap req s = { t with pend := { t.pend with trap := some { vector := 0o4, kind := .emergency } } }) ∧
  (∀ (s : State) (req : TrapRequest), (s.run ≠ .poweredDown ∨ s.inputs ≠ []) →
    ((tick s).run = .running ∨ (tick s).run = .waiting) → (tick s).pend.trap = some req →
    step s = .next (performTrap req (tick s))) ∧
  ∀ s : State,
    let newPs := s.mem.readWord (wordPlace s 0o6)
    let t := performTrap { vector := 0o4, kind := .emergency } s
    s.mem.wf = true → s.quiet = true → s.mmu.sr0.getLsbD 0 = false → psMode newPs ≠ .illegal →
    plainMemory s 0 = true → plainMemory s 0o2 = true → plainMemory s 0o4 = true → plainMemory s 0o6 = true →
    spCell t.regs (psMode newPs) = 0 ∧ t.mem.readWord (wordPlace s 0o2) = s.ps ∧ t.mem.readWord (wordPlace s 0) = s.regs.pc
      ∧ t.regs.pc = s.mem.readWord (wordPlace s 0o4) ∧ t.ps = (newPs &&& 0o140777) ||| ((s.ps &&& 0o140000) >>> 2)
      ∧ t.pend.stkovf = s.pend.stkovf ∧ t.pend.trap = none

/-- The service state (spec/60_exceptions.md R731, R740, R741). Trace, stack overflow and power fail come first, in
this order, each by its trap sequence. With none of them pending, the first requester of the highest requesting level
interrupts through its vector when that level is above PS<7:5>, and its request is withdrawn; one that supplies no vector is
ignored, and the next instruction follows (R723). On level 7 and 5 bus devices request; on 6 the line clock, then bus devices;
on 4 the console unit, then the second one, each its receiver before its transmitter and neither when disabled, then bus
devices (R744, R751, R752). With no level above the priority, a halt line or a console break enters ODT (R755); without one a
running processor fetches, and a waiting one goes on waiting (spec/45_misc_cc_mmu_ps.md R431), which a trap sequence ends.
That the line clock comes before a level 6 bus device is D53 (log 38); one action a step is log 44; that a console break asks
for a halt until an input ends it is log 62. -/
def Obligations.ServiceState : Prop :=
  (∀ (req : TrapRequest) (s : State), (performTrap req s).run = .running) ∧
  (∀ (cfg : Config) (r : BusRequest) (v : BitVec 9),
    let second (v alternate : Word) : Option Word := some (if cfg.dl2Alt then alternate else v)
    requestVector cfg .clock = some 0o100 ∧ requestVector cfg (.receiver .console) = some 0o60
      ∧ requestVector cfg (.transmitter .console) = some 0o64 ∧ requestVector cfg (.receiver .second) = second 0o300 0o340
      ∧ requestVector cfg (.transmitter .second) = second 0o304 0o344
      ∧ (r.vector = none → requestVector cfg (.bus r) = none)
      ∧ (r.vector = some v → v.toNat % 4 = 0 → requestVector cfg (.bus r) = some (v.setWidth 16))) ∧
  ∀ s : State,
    let bus (level : Nat) : List Requester := (s.lines.requests.filter fun r => r.level == level).map .bus
    let unit (u : Unit2) (disabled : Bool) : List Requester :=
      if disabled then []
      else (if (s.slu u).rxReq then [.receiver u] else []) ++ (if (s.slu u).txReq then [.transmitter u] else [])
    (requestsAt s 7 = bus 7 ∧ requestsAt s 6 = (if s.board.eventFlg then [.clock] else []) ++ bus 6
      ∧ requestsAt s 5 = bus 5
      ∧ requestsAt s 4 = unit .console s.cfg.dl1Disable ++ (unit .second s.cfg.dl2Disable ++ bus 4))
      ∧ (withdraw .clock s = { s with board := { s.board with eventFlg := false } }
        ∧ (∀ u, withdraw (.receiver u) s = s.withSlu u { s.slu u with rxReq := false }
          ∧ withdraw (.transmitter u) s = s.withSlu u { s.slu u with txReq := false })
        ∧ ∀ r, withdraw (.bus r) s = { s with lines := { s.lines with requests := s.lines.requests.erase r } })
      ∧ (s.pend.trace = true → service s = .acted
        (performTrap { vector := 0o14, kind := .ordinary } { s with pend := { s.pend with trace := false } }))
      ∧ (s.pend.trace = false → s.pend.stkovf = true → service s = .acted
        (performTrap { vector := 0o4, kind := .stackOverflow } { s with pend := { s.pend with stkovf := false } }))
      ∧ (s.pend.trace = false → s.pend.stkovf = false → s.pend.pwrdwn = true → service s = .acted
        (performTrap { vector := 0o24, kind := .ordinary } { s with pend := { s.pend with pwrdwn := false } }))
      ∧ (s.pend.trace = false → s.pend.stkovf = false → s.pend.pwrdwn = false →
        (∀ (level : Nat) (r : Requester) (rest : List Requester), 4 ≤ level → level ≤ 7 →
          requestsAt s level = r :: rest → (∀ above, level < above → above ≤ 7 → requestsAt s above = []) →
          s.ps.toNat / 32 % 8 < level →
            (∀ v, requestVector s.cfg r = some v →
              service s = .acted (performTrap { vector := v, kind := .ordinary } (withdraw r s)))
              ∧ (requestVector s.cfg r = none → service s = .fetch { s with run := .running }))
          ∧ ((∀ level, s.ps.toNat / 32 % 8 < level → level ≤ 7 → requestsAt s level = []) →
            (s.lines.bhalt = true ∨ s.lines.breakHalt = true → ∃ t, enterOdt s = .ok ⟨⟩ t ∧ service s = .acted t
              ∧ t.run = .halted ∧ t.regs = s.regs ∧ t.ps = s.ps ∧ t.mmu = s.mmu ∧ t.pend = s.pend)
              ∧ (s.lines.bhalt = false → s.lines.breakHalt = false →
                (s.run = .waiting → service s = .acted s) ∧ (s.run = .running → service s = .fetch s))))

/-! Single-operand instructions. -/

/-- The word instructions that read and rewrite one operand (spec/41_single_operand.md R281 to R304): in every form
whose operand can be read and written, the instruction completes; the operand becomes the value given here and N, Z,
V, C take the values given here. What happens when the operand is the PS itself is D5 (log 9); that C of SBC is the borrow is
the spec's general knowledge (R286, C19, log 60). -/
def Obligations.SingleOperandWord : Prop :=
  ∀ (s s1 : State) (o : Operand) (l : Loc), evalField 2 o s = .ok l s1 →
    let c := s.ps.getLsbD 0
    let carry : Word := (BitVec.ofBool c).setWidth 16
    let rewrites (i : Instr) (f : Word → Word) (k : Word → Codes) : Prop :=
      ∀ d p t, rewritesWord l s1 d (f d) p t → exec i s = completed (settled p (k d) t)
    let nz (r : Word) (v c : Bool) : Codes := { n := r.getLsbD 15, z := r == 0, v := v, c := c }
    let shifted (r : Word) (c : Bool) : Codes := nz r (r.getLsbD 15 != c) c
    rewrites (.com o) (fun d => ~~~d) (fun d => nz (~~~d) false true)
      ∧ rewrites (.inc o) (fun d => d + 1) (fun d => nz (d + 1) (d == 0o077777) c)
      ∧ rewrites (.dec o) (fun d => d - 1) (fun d => nz (d - 1) (d == 0o100000) c)
      ∧ rewrites (.neg o) (fun d => 0 - d) (fun d => nz (0 - d) (d == 0o100000) (d != 0))
      ∧ rewrites (.adc o) (fun d => d + carry) (fun d => nz (d + carry) (d == 0o077777 && c) (d == 0o177777 && c))
      ∧ rewrites (.sbc o) (fun d => d - carry) (fun d => nz (d - carry) (d == 0o100000 && c) (d == 0 && c))
      ∧ rewrites (.ror o) (fun d => BitVec.ofBool c ++ d.extractLsb' 1 15)
          (fun d => shifted (BitVec.ofBool c ++ d.extractLsb' 1 15) (d.getLsbD 0))
      ∧ rewrites (.rol o) (fun d => d.extractLsb' 0 15 ++ BitVec.ofBool c)
          (fun d => shifted (d.extractLsb' 0 15 ++ BitVec.ofBool c) (d.getLsbD 15))
      ∧ rewrites (.asr o) (fun d => d.sshiftRight 1) (fun d => shifted (d.sshiftRight 1) (d.getLsbD 0))
      ∧ rewrites (.asl o) (fun d => d + d) (fun d => shifted (d + d) (d.getLsbD 15))
      ∧ rewrites (.swab o) (fun d => d.extractLsb' 0 8 ++ d.extractLsb' 8 8)
          (fun d => { n := d.getLsbD 15, z := d.extractLsb' 8 8 == 0, v := false, c := false })

/-- The byte instructions that read and rewrite one operand, a register by its low byte alone
(spec/41_single_operand.md R281 to R293, spec/40_addressing_modes.md R241). What happens when the operand is the PS itself
is D5 (log 9); that C of SBCB is the borrow is the spec's general knowledge (R286, C19, log 60). -/
def Obligations.SingleOperandByte : Prop :=
  ∀ (s s1 : State) (o : Operand) (l : Loc), evalField 1 o s = .ok l s1 →
    let c := s.ps.getLsbD 0
    let carry : Byte := (BitVec.ofBool c).setWidth 8
    let rewrites (i : Instr) (f : Byte → Byte) (k : Byte → Codes) : Prop :=
      ∀ d p t, rewritesByte l s1 d (f d) p t → exec i s = completed (settled p (k d) t)
    let nz (r : Byte) (v c : Bool) : Codes := { n := r.getLsbD 7, z := r == 0, v := v, c := c }
    let shifted (r : Byte) (c : Bool) : Codes := nz r (r.getLsbD 7 != c) c
    rewrites (.comb o) (fun d => ~~~d) (fun d => nz (~~~d) false true)
      ∧ rewrites (.incb o) (fun d => d + 1) (fun d => nz (d + 1) (d == 0o177) c)
      ∧ rewrites (.decb o) (fun d => d - 1) (fun d => nz (d - 1) (d == 0o200) c)
      ∧ rewrites (.negb o) (fun d => 0 - d) (fun d => nz (0 - d) (d == 0o200) (d != 0))
      ∧ rewrites (.adcb o) (fun d => d + carry) (fun d => nz (d + carry) (d == 0o177 && c) (d == 0o377 && c))
      ∧ rewrites (.sbcb o) (fun d => d - carry) (fun d => nz (d - carry) (d == 0o200 && c) (d == 0 && c))
      ∧ rewrites (.rorb o) (fun d => BitVec.ofBool c ++ d.extractLsb' 1 7)
          (fun d => shifted (BitVec.ofBool c ++ d.extractLsb' 1 7) (d.getLsbD 0))
      ∧ rewrites (.rolb o) (fun d => d.extractLsb' 0 7 ++ BitVec.ofBool c)
          (fun d => shifted (d.extractLsb' 0 7 ++ BitVec.ofBool c) (d.getLsbD 7))
      ∧ rewrites (.asrb o) (fun d => d.sshiftRight 1) (fun d => shifted (d.sshiftRight 1) (d.getLsbD 0))
      ∧ rewrites (.aslb o) (fun d => d + d) (fun d => shifted (d + d) (d.getLsbD 7))

/-- CLR, CLRB and SXT write without reading, TST and TSTB read without writing (spec/41_single_operand.md R280, R287,
R305). What happens when the operand is the PS itself is D5 (log 9). -/
def Obligations.ClearTestExtend : Prop :=
  ∀ (s s1 : State) (o : Operand) (l : Loc),
    let n := s.ps.getLsbD 3
    let cleared : Codes := { n := false, z := true, v := false, c := false }
    (evalField 2 o s = .ok l s1 →
      (∀ p t, writeLoc l 0 s1 = .ok p t → exec (.clr o) s = completed (settled p cleared t))
        ∧ (∀ p t, writeLoc l (if n then 0o177777 else 0) s1 = .ok p t →
          exec (.sxt o) s = completed (settled p { n := n, z := !n, v := false, c := s.ps.getLsbD 0 } t))
        ∧ ∀ d t, readLoc l s1 = .ok d t →
          exec (.tst o) s = completed (settled false { n := d.getLsbD 15, z := d == 0, v := false, c := false } t))
      ∧ (evalField 1 o s = .ok l s1 →
        (∀ p t, writeLocByte l 0 s1 = .ok p t → exec (.clrb o) s = completed (settled p cleared t))
          ∧ ∀ d t, readLocByte l s1 = .ok d t →
            exec (.tstb o) s = completed (settled false { n := d.getLsbD 7, z := d == 0, v := false, c := false } t))

/-! Double-operand instructions. -/

/-- The word instructions of two operands (spec/42_double_operand.md R331 to R338, spec/40_addressing_modes.md R262):
the source field is evaluated, and read if it is in memory, before the destination field; a source register is read
after it. Overflow is that the exact signed result does not fit a word, carry that the unsigned one does not. XOR
(R345) reads its register after the destination field is evaluated. What happens when the operand is the PS itself is
D5 (log 9). -/
def Obligations.DoubleOperandWord : Prop :=
  (∀ (s s1 s2 : State) (r : Reg) (o : Operand) (l : Loc) (x d : Word) (p : Bool) (t : State),
    evalField 2 o s = .ok l s1 → readReg r s1 = .ok x s2 → rewritesWord l s2 d (x ^^^ d) p t →
    exec (.xor r o) s =
      completed (settled p { n := (x ^^^ d).getLsbD 15, z := x ^^^ d == 0, v := false, c := s.ps.getLsbD 0 } t)) ∧
  ∀ (s s1 s2 s3 : State) (src dst : Operand) (x : Source Word) (l : Loc) (v : Word),
    sourceWord src s = .ok x s1 → evalField 2 dst s1 = .ok l s2 → x.word s2 = .ok v s3 →
    let c := s.ps.getLsbD 0
    let nz (r : Word) (v c : Bool) : Codes := { n := r.getLsbD 15, z := r == 0, v := v, c := c }
    let fits (e : Int) : Bool := decide (-0o100000 ≤ e ∧ e ≤ 0o77777)
    let rewrites (i : Instr) (f : Word → Word) (k : Word → Codes) : Prop :=
      ∀ d p t, rewritesWord l s3 d (f d) p t → exec i s = completed (settled p (k d) t)
    let reads (i : Instr) (k : Word → Codes) : Prop :=
      ∀ d t, readLoc l s3 = .ok d t → exec i s = completed (settled false (k d) t)
    (∀ p t, writeLoc l v s3 = .ok p t → exec (.mov src dst) s = completed (settled p (nz v false c) t))
      ∧ reads (.cmp src dst) (fun d => nz (v - d) (!fits (v.toInt - d.toInt)) (decide (v.toNat < d.toNat)))
      ∧ reads (.bit src dst) (fun d => nz (v &&& d) false c)
      ∧ rewrites (.bic src dst) (fun d => d &&& ~~~v) (fun d => nz (d &&& ~~~v) false c)
      ∧ rewrites (.bis src dst) (fun d => d ||| v) (fun d => nz (d ||| v) false c)
      ∧ rewrites (.add src dst) (fun d => d + v)
          (fun d => nz (d + v) (!fits (d.toInt + v.toInt)) (decide (0o200000 ≤ d.toNat + v.toNat)))
      ∧ rewrites (.sub src dst) (fun d => d - v)
          (fun d => nz (d - v) (!fits (d.toInt - v.toInt)) (decide (d.toNat < v.toNat)))

/-- The byte instructions of two operands; MOVB to a register extends the sign through the whole register
(spec/42_double_operand.md R331 to R336). What happens when the operand is the PS itself is D5 (log 9). -/
def Obligations.DoubleOperandByte : Prop :=
  ∀ (s s1 s2 s3 : State) (src dst : Operand) (x : Source Byte) (l : Loc) (v : Byte),
    sourceByte src s = .ok x s1 → evalField 1 dst s1 = .ok l s2 → x.byte s2 = .ok v s3 →
    let c := s.ps.getLsbD 0
    let nz (r : Byte) (v c : Bool) : Codes := { n := r.getLsbD 7, z := r == 0, v := v, c := c }
    let fits (e : Int) : Bool := decide (-0o200 ≤ e ∧ e ≤ 0o177)
    let rewrites (i : Instr) (f : Byte → Byte) (k : Byte → Codes) : Prop :=
      ∀ d p t, rewritesByte l s3 d (f d) p t → exec i s = completed (settled p (k d) t)
    let reads (i : Instr) (k : Byte → Codes) : Prop :=
      ∀ d t, readLocByte l s3 = .ok d t → exec i s = completed (settled false (k d) t)
    (dst.mode = .register →
      exec (.movb src dst) s = completed (settled false (nz v false c) (s3.withReg dst.reg (BitVec.ofInt 16 v.toInt))))
      ∧ (dst.mode ≠ .register → ∀ p t, writeLocByte l v s3 = .ok p t →
        exec (.movb src dst) s = completed (settled p (nz v false c) t))
      ∧ reads (.cmpb src dst) (fun d => nz (v - d) (!fits (v.toInt - d.toInt)) (decide (v.toNat < d.toNat)))
      ∧ reads (.bitb src dst) (fun d => nz (v &&& d) false c)
      ∧ rewrites (.bicb src dst) (fun d => d &&& ~~~v) (fun d => nz (d &&& ~~~v) false c)
      ∧ rewrites (.bisb src dst) (fun d => d ||| v) (fun d => nz (d ||| v) false c)

/-- MUL and DIV (spec/42_double_operand.md R346, R347): the exact product over R and R v 1, of which an odd register
keeps the low half; quotient truncated toward zero and remainder; a divisor of 0 or a quotient that does not fit
leaves both registers and sets V, with C for the divisor of 0. That C of MUL says that the product does not fit a word is
D28, the spec's general knowledge (C22, G5, log 25); an odd register, and DIV whose quotient does not fit, follow D25 to D27
(log 25). -/
def Obligations.MultiplyDivide : Prop :=
  ∀ (s s1 s2 : State) (r : Reg) (o : Operand) (v x : Word), operandWord o s = .ok v s1 → readReg r s1 = .ok x s2 →
    (let product := x.toInt * v.toInt
     exec (.mul r o) s =
       completed (settled false
         { n := decide (product < 0), z := decide (product = 0), v := false,
           c := decide (product < -0o100000 ∨ 0o77777 < product) }
         ((s2.withReg r (BitVec.ofInt 16 (product / 0o200000))).withReg (oddOf r) (BitVec.ofInt 16 product))))
      ∧ ∀ (y : Word) (s3 : State), readReg (oddOf r) s2 = .ok y s3 →
        let dividend := (x.toInt * 0o200000 + y.toNat)
        let quotient := dividend.tdiv v.toInt
        (v = 0 → exec (.div r o) s = completed (settled false { n := false, z := false, v := true, c := true } s3))
          ∧ (v ≠ 0 → ¬(-0o100000 ≤ quotient ∧ quotient ≤ 0o77777) →
            exec (.div r o) s = completed (settled false { n := false, z := false, v := true, c := false } s3))
          ∧ (v ≠ 0 → -0o100000 ≤ quotient → quotient ≤ 0o77777 →
            exec (.div r o) s =
              completed (settled false { n := decide (quotient < 0), z := decide (quotient = 0), v := false, c := false }
                ((s3.withReg r (BitVec.ofInt 16 quotient)).withReg (oddOf r)
                  (BitVec.ofInt 16 (dividend - quotient * v.toInt)))))

/-- ASH and ASHC by the signed count in bits <5:0> of the source (spec/42_double_operand.md R348, R349): multiplied or
divided by a power of two, the sign copied in from the left; C is the last bit shifted out and V says that the sign
changed at some step of a left shift. A count of 0 and an odd register follow D29, D30 (log 25). -/
def Obligations.ArithmeticShifts : Prop :=
  ∀ (s s1 s2 : State) (r : Reg) (o : Operand) (v x : Word), operandWord o s = .ok v s1 → readReg r s1 = .ok x s2 →
    let count := (v.extractLsb' 0 6).toInt
    let left := count.toNat
    let right := (-count).toNat
    (exec (.ash r o) s =
      if 0 ≤ count then
        completed (settled false
          { n := (x <<< left).getLsbD 15, z := x <<< left == 0,
            v := decide (∃ j < left, (x <<< (j + 1)).getLsbD 15 ≠ x.getLsbD 15),
            c := decide (0 < left) && (x <<< (left - 1)).getLsbD 15 } (s2.withReg r (x <<< left)))
      else
        completed (settled false
          { n := x.getLsbD 15, z := x.sshiftRight right == 0, v := false, c := (x.sshiftRight (right - 1)).getLsbD 0 }
          (s2.withReg r (x.sshiftRight right))))
      ∧ ∀ (y : Word) (s3 : State), readReg (oddOf r) s2 = .ok y s3 →
        let pair : BitVec 32 := x ++ y
        let stored (z : BitVec 32) : State := (s3.withReg r (z.extractLsb' 16 16)).withReg (oddOf r) (z.extractLsb' 0 16)
        exec (.ashc r o) s =
          if 0 ≤ count then
            completed (settled false
              { n := (pair <<< left).getLsbD 31, z := pair <<< left == 0,
                v := decide (∃ j < left, (pair <<< (j + 1)).getLsbD 31 ≠ pair.getLsbD 31),
                c := decide (0 < left) && (pair <<< (left - 1)).getLsbD 31 } (stored (pair <<< left)))
          else
            completed (settled false
              { n := pair.getLsbD 31, z := pair.sshiftRight right == 0, v := false,
                c := (pair.sshiftRight (right - 1)).getLsbD 0 } (stored (pair.sshiftRight right)))

/-- Where a written or rewritten operand lies, everything else stays: of a register destination, all but that
register; of a memory destination, every register, every byte outside the word, or the byte, its address names, as the DMA
masters left it just before (log 19), and, in memory below the I/O page, all but the W bit of the page register used. A
register taken as mode 10's R6 is read as a free value (D1, log 6). -/
def Obligations.DestinationFrame : Prop :=
  (∀ (s t : State) (r : Reg) (d x : Word) (p : Bool), rewritesWord (.reg r) s d x p t →
    t = { s with regs := t.regs, free := t.free } ∧ sameRegsBut [r] s.mode s.regs t.regs)
    ∧ (∀ (s : State) (r : Reg) (x : Word), writeLoc (.reg r) x s = .ok false (s.withReg r x)
      ∧ sameRegsBut [r] s.mode s.regs (s.withReg r x).regs)
    ∧ (∀ (s t : State) (r : Reg) (d x : Byte) (p : Bool), rewritesByte (.reg r) s d x p t →
      t = { s with regs := t.regs, free := t.free } ∧ sameRegsBut [r] s.mode s.regs t.regs
        ∧ (regCell t.regs s.mode r).extractLsb' 0 8 = x)
    ∧ ∀ (s g t : State) (ea : Word) (m : Mapped) (p : Bool), translate s.mode ea true s = .ok m s →
      busGrant s = .ok ⟨⟩ g →
      let byte : Prop := (∃ d x, rewritesByte (.mem ea) s d x p t) ∨ ∃ x, writeLocByte (.mem ea) x s = .ok p t
      let marked : Mmu := match m.page with
        | none => s.mmu
        | some (p, n) => s.mmu.withPdr p n (s.mmu.pdr p n ||| 0o100)
      (byte ∨ (∃ d x, rewritesWord (.mem ea) s d x p t) ∨ ∃ x, writeLoc (.mem ea) x s = .ok p t) →
      t.regs = s.regs ∧ t.fpp = s.fpp ∧ t.cfg = s.cfg ∧ t.run = s.run ∧ t.pend = s.pend ∧ t.bus = g.bus
        ∧ (∀ a, a ≠ wordPlace s m.pa → a ≠ wordPlace s m.pa + 1 → t.mem.read a = g.mem.read a)
        ∧ (byte → ∀ a, a ≠ memoryAddr s.cfg m.pa → t.mem.read a = g.mem.read a)
        ∧ (isIoPage m.pa = true → t.mem = g.mem)
        ∧ (isIoPage m.pa = false → p = false ∧ t = { g with mem := t.mem, mmu := marked })

/-! Branches, jumps, subroutines. -/

/-- The branches (spec/43_branch.md R370 to R385), each under its op code with a signed offset in its low byte: when its
condition holds of N, Z, V, C a branch adds twice the offset to the PC, which is already past the branch; otherwise, and in
all else, nothing changes. SOB (R390) decrements its register and, unless it is then 0, takes twice its offset from the PC;
no flag changes. -/
def Obligations.Branches : Prop :=
  ∀ (s : State) (offset : Byte),
    let n := s.ps.getLsbD 3
    let z := s.ps.getLsbD 2
    let v := s.ps.getLsbD 1
    let c := s.ps.getLsbD 0
    let taken : State := { s with regs := { s.regs with pc := s.regs.pc + BitVec.ofInt 16 (2 * offset.toInt) } }
    let branches (base : Word) (i : Instr) (condition : Bool) : Prop :=
      decodeWord (base + offset.setWidth 16) = i ∧ exec i s = completed (if condition then taken else s)
    branches 0o000400 (.br offset) true
      ∧ branches 0o001000 (.bne offset) (!z) ∧ branches 0o001400 (.beq offset) z
      ∧ branches 0o100000 (.bpl offset) (!n) ∧ branches 0o100400 (.bmi offset) n
      ∧ branches 0o102000 (.bvc offset) (!v) ∧ branches 0o102400 (.bvs offset) v
      ∧ branches 0o103000 (.bcc offset) (!c) ∧ branches 0o103400 (.bcs offset) c
      ∧ branches 0o002000 (.bge offset) (n == v) ∧ branches 0o002400 (.blt offset) (n != v)
      ∧ branches 0o003000 (.bgt offset) (!z && n == v) ∧ branches 0o003400 (.ble offset) (z || n != v)
      ∧ branches 0o101000 (.bhi offset) (!c && !z) ∧ branches 0o101400 (.blos offset) (c || z)
      ∧ ∀ (r : Reg) (nn : BitVec 6) (x : Word) (u : State), readReg r s = .ok x u →
        let w := u.withReg r (x - 1)
        decodeWord (0o077000 + (r.bits.setWidth 16 <<< 6) + nn.setWidth 16) = .sob r nn
          ∧ exec (.sob r nn) s = completed
            (if x = 1 then w else { w with regs := { w.regs with pc := w.regs.pc - BitVec.ofNat 16 (2 * nn.toNat) } })

/-- After a compare of two words that completes, the signed branches decide on their signed order, the unsigned ones on
their unsigned order, and BEQ and BNE on their equality (spec/42_double_operand.md R333, spec/43_branch.md R371, R372, R379 to
R385). -/
def Obligations.CompareThenBranch : Prop :=
  ∀ (a b : Word) (s : State) (offset : Byte), psCodes s.ps = aluCmp a b →
    let taken : State := { s with regs := { s.regs with pc := s.regs.pc + BitVec.ofInt 16 (2 * offset.toInt) } }
    let branches (i : Instr) (condition : Prop) : Prop :=
      (condition → exec i s = completed taken) ∧ (¬condition → exec i s = completed s)
    branches (.blt offset) (a.toInt < b.toInt) ∧ branches (.bge offset) (b.toInt ≤ a.toInt)
      ∧ branches (.bgt offset) (b.toInt < a.toInt) ∧ branches (.ble offset) (a.toInt ≤ b.toInt)
      ∧ branches (.bcs offset) (a.toNat < b.toNat) ∧ branches (.bhi offset) (b.toNat < a.toNat)
      ∧ branches (.blos offset) (a.toNat ≤ b.toNat) ∧ branches (.bcc offset) (b.toNat ≤ a.toNat)
      ∧ branches (.beq offset) (a = b) ∧ branches (.bne offset) (a ≠ b)

/-- JMP, JSR, RTS and MARK (spec/44_jump_subroutine_trap.md R400 to R404): JSR forms its target first, pushes the link
register as it is after R6 has moved, links the PC and jumps; RTS jumps through the link register and pops it; MARK moves R6
past the parameters, jumps through R5 and pops R5. That the push of JSR counts for the stack limit of 400 is D50 of R715 (log
36). -/
def Obligations.JumpsAndSubroutines : Prop :=
  ∀ s : State,
    let jumped (t : State) (pc : Word) : State := { t with regs := { t.regs with pc := pc } }
    (∀ (s1 : State) (o : Operand) (target : Word), evalField 2 o s = .ok (.mem target) s1 →
      exec (.jmp o) s = completed (jumped s1 target)
        ∧ ∀ (r : Reg) (u v v' t : State) (sp link : Word) (p : Bool), readReg .sp s1 = .ok sp u →
          noteStackLimit (sp - 2) (u.withReg .sp (sp - 2)) = .ok ⟨⟩ v → readReg r v = .ok link v' →
          writeWord (sp - 2) link v' = .ok p t →
          exec (.jsr r o) s = completed (jumped (t.withReg r t.regs.pc) target))
      ∧ (∀ (r : Reg) (x w : Word) (u t : State), readReg r s = .ok x u → pop (jumped u x) = .ok w t →
        exec (.rts r) s = completed (t.withReg r w))
      ∧ ∀ (nn : BitVec 6) (w : Word) (t : State),
        pop (jumped (s.withReg .sp (s.regs.pc + BitVec.ofNat 16 (2 * nn.toNat))) s.regs.r5) = .ok w t →
        exec (.mark nn) s = completed (t.withReg .r5 w)

/-! Condition codes, the PS, previous space, control. -/

/-- The condition-code operators clear (000240 plus a mask) or set (000260 plus a mask) exactly the bits of their mask in
PS<3:0>, the named ones and the others alike; NOP changes nothing (spec/45_misc_cc_mmu_ps.md R433, R440, R441). -/
def Obligations.ConditionCodeOperators : Prop :=
  ∀ (s : State) (mask : BitVec 4),
    let clears (i : Instr) (m : Word) : Prop := exec i s = completed { s with ps := s.ps &&& ~~~m }
    let sets (i : Instr) (m : Word) : Prop := exec i s = completed { s with ps := s.ps ||| m }
    clears (decodeWord (0o000240 + mask.setWidth 16)) (mask.setWidth 16)
      ∧ sets (decodeWord (0o000260 + mask.setWidth 16)) (mask.setWidth 16)
      ∧ [0o240, 0o241, 0o242, 0o244, 0o250, 0o257, 0o261, 0o262, 0o264, 0o270, 0o277].map decodeWord
        = [.nop, .clc, .clv, .clz, .cln, .ccc, .sec, .sev, .sez, .sen, .scc]
      ∧ exec .nop s = completed s ∧ clears .clc 1 ∧ clears .clv 2 ∧ clears .clz 4 ∧ clears .cln 8 ∧ clears .ccc 15
      ∧ clears (.clearCodes mask) (mask.setWidth 16) ∧ sets .sec 1 ∧ sets .sev 2 ∧ sets .sez 4 ∧ sets .sen 8 ∧ sets .scc 15
      ∧ sets (.setCodes mask) (mask.setWidth 16)

/-- MFPS and MTPS (spec/45_misc_cc_mmu_ps.md R454, R455): MFPS moves PS<7:0>, with its sign extended into a register; MTPS
loads PS<7:5> and PS<3:0> in kernel mode and PS<3:0> alone in any other, never T. That modes 01 and 10 are no kernel mode
is the spec's decision D4 (log 8); what happens when MFPS writes the PS itself is D5 (log 9). -/
def Obligations.ProcessorStatusMoves : Prop :=
  ∀ (s s1 : State) (o : Operand) (l : Loc), evalField 1 o s = .ok l s1 →
    (let b : Byte := s.ps.extractLsb' 0 8
     let k : Codes := { n := b.getLsbD 7, z := b == 0, v := false, c := s.ps.getLsbD 0 }
     (o.mode = .register → exec (.mfps o) s = completed (settled false k (s1.withReg o.reg (BitVec.ofInt 16 b.toInt))))
       ∧ (o.mode ≠ .register → ∀ p t, writeLocByte l b s1 = .ok p t → exec (.mfps o) s = completed (settled p k t)))
      ∧ ∀ (b : Byte) (t : State), readLocByte l s1 = .ok b t →
        let mask : Word := if s.mode = .kernel then 0o357 else 0o17
        exec (.mtps o) s = completed { t with ps := (s.ps &&& ~~~mask) ||| (b.setWidth 16 &&& mask) }

/-- MFPI and MFPD push a word of the previous mode's space, or a register, R6 being that of the previous mode; MTPI
and MTPD pop one there (spec/45_misc_cc_mmu_ps.md R449 to R453). R6 as the previous mode's, and the pop before the
destination is evaluated, are D31, D32 (log 26); that the push counts for the stack limit is D50 (log 36); what happens when
the operand is the PS itself is D5 (log 9). -/
def Obligations.PreviousSpaceMoves : Prop :=
  ∀ (s : State) (o : Operand),
    let codes (v : Word) : Codes := { n := v.getLsbD 15, z := v == 0, v := false, c := s.ps.getLsbD 0 }
    let previous := psPrevious s.ps
    (∀ (s1 s2 t : State) (l : Loc) (v : Word) (p : Bool), evalField 2 o s = .ok l s1 →
      (match l with
        | .reg .sp => readSpOf previous s1 = .ok v s2
        | .reg r => readReg r s1 = .ok v s2
        | .mem ea => readWordIn previous ea s1 = .ok v s2) →
      push v s2 = .ok p t →
      exec (.mfpi o) s = completed (settled p (codes v) t) ∧ exec (.mfpd o) s = completed (settled p (codes v) t))
      ∧ ∀ (s1 s2 : State) (l : Loc) (v : Word), pop s = .ok v s1 → evalField 2 o s1 = .ok l s2 →
        match l with
        | .reg .sp =>
          let t : State := { s2 with regs := s2.regs.withSp previous v }
          exec (.mtpi o) s = completed (settled false (codes v) t) ∧ exec (.mtpd o) s = completed (settled false (codes v) t)
        | .reg r =>
          exec (.mtpi o) s = completed (settled false (codes v) (s2.withReg r v))
            ∧ exec (.mtpd o) s = completed (settled false (codes v) (s2.withReg r v))
        | .mem ea => ∀ p t, writeWordIn previous ea v s2 = .ok p t →
          exec (.mtpi o) s = completed (settled p (codes v) t) ∧ exec (.mtpd o) s = completed (settled p (codes v) t)

/-- HALT in kernel mode with power good enters console ODT, which is to print the PC between line ends and a prompt;
WAIT waits; MFPT puts 3 in R0; RESET in kernel mode clears what BINIT reaches, SR0, SR3, the board registers, the
enables and flags of both serial-line units, and in any other mode does nothing (spec/45_misc_cc_mmu_ps.md R430 to
R434, spec/70_reset_and_hazards.md R812, R832). That modes 01 and 10 are no kernel mode is the spec's decision D4 (log
8); which registers BINIT clears beyond those the source names is D9 (log 13), and that it clears EVENT FLG D10 (R72, log
14). -/
def Obligations.ControlInstructions : Prop :=
  ∀ s g : State, busGrant s = .ok ⟨⟩ g →
    (s.mode = .kernel → s.lines.bpok = true → s.cfg.haltTrap = false → ∃ t, exec .halt s = .next t ∧ t.run = .halted
      ∧ t.odt.todo = puts ([0o15, 0o12] ++ oct6 (s.regs.pc.setWidth 18) ++ [0o15, 0o12, 0o100])
      ∧ t.regs = s.regs ∧ t.ps = s.ps ∧ t.mem = g.mem ∧ t.mmu = s.mmu ∧ t.fpp = s.fpp)
      ∧ exec .wait s = completed { s with run := .waiting }
      ∧ exec .mfpt s = completed { s with regs := { s.regs with r0 := 3 } }
      ∧ (s.mode ≠ .kernel → exec .reset s = completed s)
      ∧ (s.mode = .kernel → ∃ t, exec .reset s = completed t ∧ t.mmu = { s.mmu with sr0 := 0, sr3 := 0 }
        ∧ t.board = { pcr := 0, rwr := 0, display := 0, lcie := false, eventFlg := false }
        ∧ t.regs = s.regs ∧ t.ps = s.ps ∧ t.mem = s.mem ∧ t.fpp = s.fpp
        ∧ (s.cfg.uart1NoInit = false → t.slu1.rcsr = 0 ∧ t.slu1.tcsr = 0o200) ∧ t.slu2.rcsr = 0 ∧ t.slu2.tcsr = 0o200)

/-- Power going and coming (spec/70_reset_and_hazards.md R800 to R810, spec/60_exceptions.md R711). A step that the loss of
dc power cuts short keeps of memory what its first bus cycles have made of it, each cycle counting one, and none after the
last; BINIT is given (R812). Nothing runs and no character is sent until power returns; then the chips are reset and BINIT
given again, and the action of the jumpers follows once BPOK H is there: PC and PS from 24 and 26, ODT, the bootstrap at
173000, or a trap through 10. BPOK H negated posts the power fail once, and a kernel HALT then waits for it. How many cycles
are completed is an input (D59, log 42, 43); a failing read of 24 or 26 and the PS of mode 3 are D57, D58 (log 41); PS<11:9>
are not loaded by D3 (log 7) and EVENT FLG is cleared by D10 (log 14); which board registers BINIT clears is D9 (log 13), and
that it withdraws the requests of bus devices I37 (log 46); that after a HALT that waited for BPOK H requests stay pending
over the action, and the PS is cleared in it, is the model's choice (log 57). -/
def Obligations.PowerUpAndDown : Prop :=
  ∀ s : State,
    let acting : State := { s with ps := 0, run := .running }
    let haltLine : Bool := s.lines.bhalt || s.lines.breakHalt
    (∀ n rest, s.inputs = .powerDown n :: rest → ∃ u,
      runStateStep { tick { s with inputs := [] } with bus := { (tick { s with inputs := [] }).bus with left := some n } } = .next u
        ∧ step s = .next { tick s with mem := u.mem, bus := { u.bus with left := none } } ∧ (tick s).run = .poweredDown
        ∧ (tick s).mmu = { s.mmu with sr0 := 0, sr3 := 0 } ∧ (tick s).lines.requests = []
        ∧ (tick s).board = { pcr := 0, rwr := 0, display := 0, lcie := false, eventFlg := false }
        ∧ ∀ x : Unit2, x = .second ∨ s.cfg.uart1NoInit = false →
          ((tick s).slu x).rcsr = 0 ∧ ((tick s).slu x).tcsr = 0o200 ∧ ((tick s).slu x).rbufWord &&& 0o170000 = 0)
      ∧ (s.run = .poweredDown → ∀ x : Unit2, ((tick s).slu x).sent = (s.slu x).sent)
      ∧ (s.bus.left = some 0 → busGrant s = .error (.abort .timeout) s)
      ∧ (∀ n, s.bus.left = some (n + 1) → ∃ g, busGrant s = .ok ⟨⟩ g ∧ g.bus.left = some n)
      ∧ (∀ i rest, s.run = .poweredDown → s.inputs = i :: rest → i ≠ .powerUp → (∀ n, i ≠ .powerDown n) →
        step s = .next (tick s) ∧ (tick s).run = .poweredDown)
      ∧ (∀ rest, s.run = .poweredDown → s.inputs = .powerUp :: rest →
        let u := tick s
        step s = .next (if s.lines.bpok then powerUpAction u else u) ∧ u.run = .awaitingBpok ∧ u.ps = 0 ∧ u.mmu.sr0 = 0
          ∧ u.mmu.sr3 = 0 ∧ u.board = { pcr := 0, rwr := 0, display := 0, lcie := false, eventFlg := false }
          ∧ (∀ x : Unit2, (u.slu x).rcsr = 0 ∧ (u.slu x).tcsr = 0o200)
          ∧ u.pend = { trap := none, trace := false, stkovf := false, pwrdwn := false, proceed := false }
          ∧ (s.cfg.nonvolatile = true → u.mem = s.mem) ∧ u.cfg = s.cfg)
      ∧ ((tick s).run = .awaitingBpok → step s = .next (if (tick s).lines.bpok then powerUpAction (tick s) else tick s))
      ∧ (s.mode = .kernel → s.lines.bpok = false → exec .halt s = completed { s with run := .awaitingBpok })
      ∧ (∀ asserted rest, s.inputs = .bpok asserted :: rest →
        (tick s).lines.bpok = asserted ∧ (tick s).pend.pwrdwn = (s.pend.pwrdwn || (s.lines.bpok && !asserted)))
      ∧ (s.cfg.powerUpMode = .mode0 → s.quiet = true →
        (plainMemory s 0o24 = true → plainMemory s 0o26 = true → haltLine = false →
          powerUpAction s = { acting with
            regs := { s.regs with pc := s.mem.readWord (wordPlace s 0o24) }
            ps := s.mem.readWord (wordPlace s 0o26) &&& 0o170777 })
          ∧ (plainMemory s 0o24 = true → plainMemory s 0o26 = true → haltLine = true →
            (powerUpAction s).run = .halted ∧ (powerUpAction s).pend = s.pend
              ∧ (powerUpAction s).regs = { s.regs with pc := s.mem.readWord (wordPlace s 0o24) }
              ∧ (powerUpAction s).ps = s.mem.readWord (wordPlace s 0o26) &&& 0o170777)
          ∧ ∀ k u, (busRead 0o24 acting = .error (.abort k) u
              ∨ ∃ v w, busRead 0o24 acting = .ok v w
                ∧ busRead 0o26 { w with regs := { w.regs with pc := v } } = .error (.abort k) u) →
            powerUpAction s = { u with pend := { u.pend with
              trap := some { vector := (match k with
                | .mmu => 0o250
                | .timeout => 0o4
                | .parity => 0o114), kind := .ordinary } } })
      ∧ (s.cfg.powerUpMode = .mode1 → (powerUpAction s).run = .halted ∧ (powerUpAction s).ps = 0
        ∧ (powerUpAction s).regs = s.regs ∧ (powerUpAction s).pend = s.pend)
      ∧ (s.cfg.powerUpMode = .mode2 →
        (haltLine = false → powerUpAction s = { acting with regs := { s.regs with pc := 0o173000 }, ps := 0o340 })
          ∧ (haltLine = true → (powerUpAction s).run = .halted ∧ (powerUpAction s).regs = { s.regs with pc := 0o173000 }
            ∧ (powerUpAction s).ps = 0o340 ∧ (powerUpAction s).pend = s.pend))
      ∧ (s.cfg.powerUpMode = .mode3 → powerUpAction s = performTrap { vector := 0o10, kind := .ordinary } acting)

/-! Floating point. -/

/-- The floating-point instructions that move status (spec/47_fp_instructions.md R520 to R527), the first five under their
words: CFCC copies FPS<3:0> to PS<3:0>; SETF, SETD, SETI, SETL write FD and FL; LDFPS loads every bit the FPS has; STFPS
stores it; STST stores FEC and FEA, in a register or the one immediate word the first of them alone (spec/46_fp_state.md
R482, R483). That the FPS has no bits 13, 12 and 4 is the spec's choice D7 (log 11); the step of 4 is its D37 (log 27). -/
def Obligations.FpStatus : Prop :=
  ∀ (s : State) (o : Operand), s.cfg.fpPresent = true →
    let fpsIs (w : Word) (t : State) : State := { t with fpp := { t.fpp with fps := w } }
    [0o170000, 0o170001, 0o170011, 0o170002, 0o170012].map decodeWord = [.cfcc, .setf, .setd, .seti, .setl]
      ∧ exec .cfcc s = completed { s with ps := (s.ps &&& 0o177760) ||| (s.fpp.fps &&& 0o17) }
      ∧ exec .setf s = completed (fpsIs (s.fpp.fps &&& 0o177577) s)
      ∧ exec .setd s = completed (fpsIs (s.fpp.fps ||| 0o200) s)
      ∧ exec .seti s = completed (fpsIs (s.fpp.fps &&& 0o177677) s)
      ∧ exec .setl s = completed (fpsIs (s.fpp.fps ||| 0o100) s)
      ∧ (∀ v t, operandWord o s = .ok v t → exec (.ldfps o) s = completed (fpsIs (v &&& 0o147757) t))
      ∧ (∀ l u p t, evalField 2 o s = .ok l u → writeLoc l s.fpp.fps u = .ok p t → exec (.stfps o) s = completed t)
      ∧ (∀ l u p t, longLoc o s = .ok l u → writeLong (s.fpp.fec.setWidth 16) s.fpp.fea l u = .ok p t →
        exec (.stst o) s = completed t)
      ∧ (∀ r, longLoc ⟨.register, r⟩ s = .ok (.reg r) s)
      ∧ longLoc ⟨.autoinc, .pc⟩ s = .ok .imm s
      ∧ (∀ a u, o ≠ ⟨.autoinc, .pc⟩ → evalField 4 o s = .ok (.mem a) u → longLoc o s = .ok (.mem a) u)
      ∧ ∀ (hi lo : Word) (v : State),
        (∀ r, writeLong hi lo (.reg r) v = .ok false (v.withReg r hi))
          ∧ (∀ p t, writeWord v.regs.pc hi { v with regs := { v.regs with pc := v.regs.pc + 2 } } = .ok p t →
            writeLong hi lo .imm v = .ok p t)
          ∧ ∀ a p t q u, writeWord a hi v = .ok p t → writeWord (a + 2) lo t = .ok q u →
            writeLong hi lo (.mem a) v = .ok (p || q) u

/-- Which bits of the FPS are the modes FD, FL and FT and the enables FIC, FIV, FIU and FIUV (spec/10_state.md R56,
spec/46_fp_state.md R478). Then loading, storing, clearing, testing, and changing the sign of one floating value
(spec/47_fp_instructions.md R530 to R535), when no trap on -0 is due. A store into an accumulator writes it alone; one
into memory, with the MMU disabled and no DMA meanwhile, writes the words of the value from the most significant on, and
no other byte (spec/46_fp_state.md R472, R477, R484). A read takes an accumulator, its high half in F format, or the words
of memory from the most significant on; the operand's size is 4 or 8 bytes; an immediate operand is the one word after the
op code, a source being fetched before the PC steps past it (R482 to R484). That an F write keeps the low half of the
accumulator is D34, the one immediate word D33, the order of the words D40 (log 27); the bit positions of sign and
exponent are the spec's general knowledge (R471, G8, log 60). -/
def Obligations.FpSingleOperand : Prop :=
  (∀ fps : Word, fpModes fps =
    { fmt := if fps.getLsbD 7 then .d else .f, long := fps.getLsbD 6, chop := fps.getLsbD 5, conversionTraps := fps.getLsbD 8,
      overflowTraps := fps.getLsbD 9, underflowTraps := fps.getLsbD 10, undefinedTraps := fps.getLsbD 11 }) ∧
  (∀ (fmt : Fmt) (v : Quad) (n : Fin 6) (s : State), writeFp fmt v (.acc n) s = .ok ⟨⟩ (accWritten fmt n v s)) ∧
  (∀ (fmt : Fmt) (v : Quad) (a : Word) (s : State), s.mem.wf = true → s.quiet = true → s.mmu.sr0.getLsbD 0 = false →
    let place (i : Nat) : Nat := wordPlace s (unmapped (a + BitVec.ofNat 16 (2 * i)))
    (∀ i < fmt.bytes / 2, plainMemory s (unmapped (a + BitVec.ofNat 16 (2 * i))) = true) →
    ∃ t, writeFp fmt v (.mem a) s = .ok ⟨⟩ t ∧ t = { s with mem := t.mem }
      ∧ (∀ i < fmt.bytes / 2, t.mem.readWord (place i) = v.extractLsb' (48 - 16 * i) 16)
      ∧ ∀ x, (∀ i < fmt.bytes / 2, x ≠ place i ∧ x ≠ place i + 1) → t.mem.read x = s.mem.read x) ∧
  (∀ (n : Fin 6) (s : State),
    accRead .d n s = s.fpp.ac[n]
      ∧ accRead .f n s = (s.fpp.ac[n].extractLsb' 32 32 : BitVec 32) ++ (0 : BitVec 32)) ∧
  (∀ (a w0 w1 w2 w3 : Word) (s s1 s2 s3 s4 : State), readWord a s = .ok w0 s1 → readWord (a + 2) s1 = .ok w1 s2 →
    readFp .f a s = .ok (w0 ++ (w1 ++ (0 : BitVec 32))) s2
      ∧ (readWord (a + 4) s2 = .ok w2 s3 → readWord (a + 6) s3 = .ok w3 s4 →
        readFp .d a s = .ok (w0 ++ (w1 ++ (w2 ++ w3))) s4)) ∧
  (∀ (fmt : Fmt) (o : Operand) (s u t : State) (a w : Word) (v : Quad),
    (fetchWord s = .ok w t → fpSource fmt ⟨.autoinc, .pc⟩ s = .ok (.imm s.regs.pc, w ++ (0 : BitVec 48)) t)
      ∧ (o ≠ ⟨.autoinc, .pc⟩ → evalField fmt.bytes o s = .ok (.mem a) u → readFp fmt a u = .ok v t →
        fpSource fmt o s = .ok (.mem a, v) t)) ∧
  (∀ (fmt : Fmt) (v : Quad) (a : Word) (p : Bool) (s t : State), writeWord a (v.extractLsb' 48 16) s = .ok p t →
    writeFp fmt v (.imm a) s = .ok ⟨⟩ t) ∧
  (∀ (s t : State) (sz : Nat) (o : Operand) (a : Word),
    fpAddress sz ⟨.autoinc, .pc⟩ s = .ok (.imm s.regs.pc) { s with regs := { s.regs with pc := s.regs.pc + 2 } }
      ∧ (o ≠ ⟨.autoinc, .pc⟩ → evalField sz o s = .ok (.mem a) t → fpAddress sz o s = .ok (.mem a) t)) ∧
  (Fmt.f.bytes = 4 ∧ Fmt.d.bytes = 8) ∧
  ∀ (s s1 : State) (o : Operand) (ac : Ac) (l : FpLoc), s.cfg.fpPresent = true →
    let md := fpModes s.fpp.fps
    (fpOperandAt md.fmt o s l s1 →
      (∀ t, writeFp md.fmt 0 l s1 = .ok ⟨⟩ t →
        exec (.clrf o) s = completed (fccSet { n := false, z := true, v := false, c := false } t))
        ∧ ∀ t, writeFp md.fmt (accRead md.fmt (acIndex ac) s) l s1 = .ok ⟨⟩ t → exec (.stf ac o) s = completed t)
      ∧ ∀ v s2, fpSourceAt md.fmt o s l v s2 → undefinedTrap md l v = false →
        exec (.ldf ac o) s = completed (accWritten md.fmt (acIndex ac) v (fccSet (fccOfValue v false) s2))
          ∧ exec (.tstf o) s = completed (fccSet (fccOfValue v false) s2)
          ∧ (let r : Quad := if fpExp v = 0 then 0 else v &&& 0x7FFFFFFFFFFFFFFF
             ∀ t, writeFp md.fmt r l s2 = .ok ⟨⟩ t → exec (.absf o) s = completed (fccSet (fccOfValue r false) t))
          ∧ (let r : Quad := if fpExp v = 0 then 0 else v ^^^ 0x8000000000000000
             ∀ t, writeFp md.fmt r l s2 = .ok ⟨⟩ t → exec (.negf o) s = completed (fccSet (fccOfValue r false) t))

/-- ADDF, SUBF, MULF, DIVF and MODF: what the operation delivers goes to the accumulator, MODF's integer part to the odd
accumulator of an even one, and the codes are those of the value stored (spec/47_fp_instructions.md R540 to R544). CMPF sets
its codes by the order of the numbers its operands stand for, FSRC less than AC being negative, and writes nothing, but for
an exact 0 when both are zero (R545); the direction FSRC less than AC is the spec's general knowledge (C40, log 60). That
MODF's codes are those of the fraction stored, whose lowest bits may be free, is the model's reading of I27 (log 29); an F
write keeps the low half of its accumulator by D34 (log 27). -/
def Obligations.FpArithmetic : Prop :=
  ∀ (s s2 : State) (o : Operand) (ac : Ac) (l : FpLoc) (v : Quad), s.cfg.fpPresent = true →
    let md := fpModes s.fpp.fps
    let a := accRead md.fmt (acIndex ac) s
    let stores (i : Instr) (r : Delivered) (t : State) : Prop :=
      r.error = none → exec i s = completed (fccSet (fccOfValue r.value r.fv) (accWritten md.fmt (acIndex ac) r.value t))
    fpSourceAt md.fmt o s l v s2 → undefinedTrap md l v = false →
    stores (.addf ac o) (fpAdd md a v) s2 ∧ stores (.subf ac o) (fpSub md a v) s2 ∧ stores (.mulf ac o) (fpMul md a v) s2
      ∧ (fpExp v ≠ 0 → stores (.divf ac o) (fpDiv md a v) s2)
      ∧ (let r := fpMod md (Config.freeQuad s2.free) a v
         let t : State := { s2 with free := s2.free + 1 }
         stores (.modf ac o) r.part
          (match ac with
            | .ac0 => accWritten md.fmt 1 r.whole t
            | .ac2 => accWritten md.fmt 3 r.whole t
            | .ac1 => t
            | .ac3 => t))
      ∧ exec (.cmpf ac o) s =
        completed (fccSet { n := decide (fpValue v < fpValue a), z := decide (fpValue v = fpValue a), v := false, c := false }
          (if fpExp v = 0 ∧ fpExp a = 0 then accWritten md.fmt (acIndex ac) 0 s2 else s2))

/-- The number each operation hands to the delivery is the exact sum, difference, product or quotient of the numbers its
operands stand for (spec/46_fp_state.md R486, spec/47_fp_instructions.md R540 to R543), and conversion to F hands on the
number itself, to D the value (R554, R555). Integers convert exactly when their magnitude fits the fraction, longer ones to
what is delivered of them, and truncating gives the integer part (R552, R553). MODF (R544), by the exponent K of the
product: one that overflows leaves exact 0 and, when enabled, the chopped product as integer part; from 2^L on the integer
part is the product chopped; from 1 on it is exact and the fraction part is what is delivered of the rest, of which the
lowest bits in D format are free, but for a rest of 0, which stays exact 0 (log 29); below 1 the fraction part is what is
delivered of the product. The bit positions of sign, exponent and fraction are the spec's general knowledge (R471, G8, log
60). -/
def Obligations.FpExactOperands : Prop :=
  (∀ (md : FpModes) (i : Int),
    let delivered := fpDeliver md i 1 0
    (i.natAbs < 2 ^ md.fmt.fraction → fpValue (fpOfInt md i) = i)
      ∧ (i.natAbs ≤ 2 ^ 31 → fpOfInt md i = delivered.value ∧ delivered.fv = false ∧ delivered.error = none)) ∧
  (∀ v : Quad, (fpTrunc v : ℚ) = if 0 ≤ fpValue v then ⌊fpValue v⌋ else ⌈fpValue v⌉) ∧
  ∀ (md : FpModes) (free a v : Quad),
    let delivers (md : FpModes) (r : Delivered) (x : ℚ) : Prop :=
      ∃ (num : Int) (den : Nat) (e : Int), 0 < den ∧ r = fpDeliver md num den e ∧ (num : ℚ) / den * 2 ^ e = x
    delivers md (fpAdd md a v) (fpValue a + fpValue v) ∧ delivers md (fpSub md a v) (fpValue a - fpValue v)
      ∧ delivers md (fpMul md a v) (fpValue a * fpValue v)
      ∧ (fpExp v ≠ 0 → delivers md (fpDiv md a v) (fpValue a / fpValue v))
      ∧ delivers { md with fmt := .f } (fpConvert md .d v) (fpValue v)
      ∧ fpConvert md .f v = { value := if fpExp v = 0 then 0 else v, fv := false, error := none }
      ∧ (let product := fpValue a * fpValue v
         let trunc (x : ℚ) : ℤ := if 0 ≤ x then ⌊x⌋ else ⌈x⌉
         let length : ℤ := md.fmt.fraction
         let r := fpMod md free a v
         (product = 0 → r = { whole := 0, part := Delivered.zero })
          ∧ ∀ K : ℤ, (2 : ℚ) ^ (K - 1) ≤ |product| → |product| < 2 ^ K →
            (127 < K →
              r.part = { value := 0, fv := true, error := if md.overflowTraps then some .overflow else none }
                ∧ (md.overflowTraps = false → r.whole = 0)
                ∧ (md.overflowTraps = true → fpSign r.whole = decide (product < 0) ∧ (fpExp r.whole : ℤ) = (K + 128) % 256
                  ∧ ((r.whole.extractLsb' 0 55).toNat + 2 ^ 55 : ℤ) = ⌊|product| * 2 ^ (length - K)⌋ * 2 ^ (56 - md.fmt.fraction)))
              ∧ (length < K → K ≤ 127 →
                r.part = Delivered.zero ∧ fpValue r.whole = trunc (product * 2 ^ (length - K)) * 2 ^ (K - length))
              ∧ (1 ≤ K → K ≤ length →
                fpValue r.whole = trunc product ∧ r.part.fv = false ∧ r.part.error = none
                  ∧ ((trunc product : ℚ) = product → r.part.value = 0)
                  ∧ ∃ q, delivers md q (product - trunc product)
                    ∧ ∀ j : Nat, (md.fmt = .f ∨ K - 8 ≤ j) → r.part.value.getLsbD j = q.value.getLsbD j)
              ∧ (K ≤ 0 → r.whole = 0 ∧ delivers md r.part product))

/-- What is delivered of an exact number (spec/46_fp_state.md R487, R488): its exponent and its fraction of L bits are those
of the largest magnitude of the format not above it, or, rounded, of one within half a unit of the last place. In the range
1 to 377 of exponents the value stands for that number, with its sign, and nothing is raised. Beyond it FV is set, and the
result is exact 0, or, when the trap is enabled, the sign, the low eight bits of the exponent and the fraction, with the
exception raised; below it likewise, without FV. A zero delivers exact 0. The bit positions of sign, exponent and fraction
are the spec's general knowledge (R471, G8, log 60). -/
def Obligations.FpDeliveredValue : Prop :=
  (∀ (md : FpModes) (den : Nat) (e : Int), fpDeliver md 0 den e = { value := 0, fv := false, error := none }) ∧
  ∀ (md : FpModes) (num : Int) (den : Nat) (e : Int), 0 < den → num ≠ 0 →
    let x : ℚ := (num : ℚ) / den * 2 ^ e
    let length := md.fmt.fraction
    let exponent := (fpNorm md.fmt md.chop num.natAbs den e).1
    let fraction := (fpNorm md.fmt md.chop num.natAbs den e).2
    let unit : ℚ := 2 ^ (exponent - 128 - length)
    let y : ℚ := fraction * unit
    let r := fpDeliver md num den e
    let packed : Prop := fpSign r.value = decide (num < 0) ∧ (fpExp r.value : Int) = exponent % 256
      ∧ (r.value.extractLsb' 0 55).toNat + 2 ^ 55 = fraction * 2 ^ (56 - length)
    (2 ^ (length - 1) ≤ fraction ∧ fraction < 2 ^ length)
      ∧ (md.chop = true → y ≤ |x| ∧ |x| < y + unit)
      ∧ (md.chop = false → y - |x| ≤ unit / 2 ∧ |x| - y < unit / 2)
      ∧ (1 ≤ exponent → exponent ≤ 255 →
        packed ∧ fpValue r.value = (if num < 0 then -y else y) ∧ r.fv = false ∧ r.error = none)
      ∧ (255 < exponent →
        (md.overflowTraps = false → r = { value := 0, fv := true, error := none })
          ∧ (md.overflowTraps = true → packed ∧ r.fv = true ∧ r.error = some .overflow))
      ∧ (exponent < 1 →
        (md.underflowTraps = false → r = { value := 0, fv := false, error := none })
          ∧ (md.underflowTraps = true → packed ∧ r.fv = false ∧ r.error = some .underflow))

/-- The conversions (spec/47_fp_instructions.md R550 to R555): STEXP; LDEXP within the range of exponents and out of it,
with the trap disabled and enabled; integer to floating and, chopped, back, or 0 with FC when it does not fit; between the
formats. A short integer is the operand's word; a long one is two words, the high one first, of which a register and an
immediate operand hold the high one (spec/46_fp_state.md R476, R483). What STCFI stores of -2^15 and -2^31 is D38 (log 28);
the forms of a long integer operand and what an F write keeps are D33, D34, D37, the PC that the trap of an exception stacks
D36 (log 27); that T is sampled after that trap is the model's reading (log 35); the order of a long integer's words in memory
and the bit positions of a floating value are the spec's general knowledge (log 60); what happens when the operand is the PS
itself is D5 (log 9); that STEXP and STCFI set the PS codes, against R33, is the model's reading (log 55). -/
def Obligations.FpConversions : Prop :=
  ∀ (s : State) (o : Operand) (ac : Ac), s.cfg.fpPresent = true →
    let md := fpModes s.fpp.fps
    let n := acIndex ac
    let a := accRead md.fmt n s
    (∀ l u p t, evalField 2 o s = .ok l u →
      let r : Word := BitVec.ofInt 16 ((fpExp a : Int) - 0o200)
      let k : Codes := { n := decide (fpExp a < 0o200), z := decide (fpExp a = 0o200), v := false, c := false }
      writeLoc l r u = .ok p t → exec (.stexp ac o) s = completed (settled p k (fccSet k t)))
      ∧ (∀ w t, operandWord o s = .ok w t →
        let r : Quad := BitVec.ofBool (fpSign a) ++ (BitVec.ofInt 8 (w.toInt + 0o200) ++ (a.extractLsb' 0 55))
        let loads (v : Quad) (fv : Bool) : State := fccSet (fccOfValue v fv) (accWritten md.fmt n v t)
        exec (.ldexp ac o) s =
          if 0o177 < w.toInt then
            if md.overflowTraps then fpRaised s (loads r true) .overflow else completed (loads 0 true)
          else if w.toInt < -0o177 then
            if md.underflowTraps then fpRaised s (loads r false) .underflow else completed (loads 0 false)
          else completed (loads r false))
      ∧ (∀ i t, readInteger md o s = .ok i t →
        let r := fpOfInt md i
        exec (.ldcif ac o) s = completed (fccSet (fccOfValue r false) (accWritten md.fmt n r t)))
      ∧ (md.long = false →
        (∀ w t, operandWord o s = .ok w t → readInteger md o s = .ok w.toInt t)
          ∧ ∀ i l u p t, evalField 2 o s = .ok l u → writeLoc l (BitVec.ofInt 16 i) u = .ok p t →
            writeInteger md o i s = .ok p t)
      ∧ (md.long = true → ∀ l u, longLoc o s = .ok l u →
        (match l with
          | .reg r => ∀ w t, readReg r u = .ok w t → readInteger md o s = .ok (w.toInt * 65536) t
          | .imm => ∀ w t, fetchWord u = .ok w t → readInteger md o s = .ok (w.toInt * 65536) t
          | .mem a => ∀ w t x v, readWord a u = .ok w t → readWord (a + 2) t = .ok x v →
            readInteger md o s = .ok (w.toInt * 65536 + x.toNat) v)
          ∧ ∀ (i : Int) p t,
            writeLong ((BitVec.ofInt 32 i).extractLsb' 16 16) ((BitVec.ofInt 32 i).extractLsb' 0 16) l u = .ok p t →
            writeInteger md o i s = .ok p t)
      ∧ (let i := fpTrunc a
         let limit : Int := if md.long then 2 ^ 31 else 2 ^ 15
         let fits : Bool := decide (-limit ≤ i ∧ i < limit)
         let r := if fits then i else 0
         let k : Codes := { n := decide (r < 0), z := decide (r = 0), v := false, c := !fits }
         ∀ p t, writeInteger md o r s = .ok p t →
          exec (.stcfi ac o) s =
            if fits = false ∧ md.conversionTraps = true then fpRaised s (settled p k (fccSet k t)) .conversion
            else completed (settled p k (fccSet k t)))
      ∧ (∀ l v w, fpSourceAt md.fmt.other o s l v w → undefinedTrap md l v = false →
        let r := fpConvert md md.fmt.other v
        let t : State := fccSet (fccOfValue r.value r.fv) (accWritten md.fmt n r.value w)
        (r.error = none → exec (.ldcdf ac o) s = completed t)
          ∧ ∀ e, r.error = some e → exec (.ldcdf ac o) s = fpRaised s t e)
      ∧ ∀ l u t, fpOperandAt md.fmt.other o s l u →
        let r := fpConvert md md.fmt a
        writeFp md.fmt.other r.value l u = .ok ⟨⟩ t →
          (r.error = none → exec (.stcfd ac o) s = completed (fccSet (fccOfValue a r.fv) t))
            ∧ ∀ e, r.error = some e → exec (.stcfd ac o) s = fpRaised s (fccSet (fccOfValue a r.fv) t) e

/-- An undefined variable is -0, sign 1 and exponent field 0, as an operand from memory, an immediate among them, with FIUV
set (R489). Floating-point exceptions (spec/46_fp_state.md R481, R489, R490, R493, spec/47_fp_instructions.md R543): an
unassigned word or AC6 and AC7 are an illegal op code; a zero divisor changes nothing; an enabled -0 from memory stops an
arithmetic instruction before it runs, and traps TSTF, ABSF, NEGF after it has; overflow and underflow, when enabled, come
after the result is stored. The address FEA takes is that of the op-code word (log 30); which codes an exception of FEC 2, 4
or 12 leaves is D39 (log 28); what an F write keeps is D34, the PC the trap stacks D36 (log 27); that T is sampled after the
trap sequence is the model's reading (log 35); that an unassigned word raises FEC 2 is D18 (spec/30_encoding.md R218, log
22); that bit 63 is the sign and bits <62:55> the exponent is the spec's general knowledge (R471, G8, log 60). -/
def Obligations.FpExceptions : Prop :=
  (∀ (fps : Word) (v : Quad) (n : Fin 6) (a : Word),
    let minusZero : Bool := fps.getLsbD 11 && v.getLsbD 63 && v.extractLsb' 55 8 == 0
    undefinedTrap (fpModes fps) (.acc n) v = false ∧ undefinedTrap (fpModes fps) (.mem a) v = minusZero
      ∧ undefinedTrap (fpModes fps) (.imm a) v = minusZero) ∧
  ∀ (s : State) (o : Operand) (ac : Ac) (w : Word), s.cfg.fpPresent = true →
    let md := fpModes s.fpp.fps
    let a := accRead md.fmt (acIndex ac) s
    let raises (is : List Instr) (t : State) (e : FpError) : Prop := ∀ i ∈ is, exec i s = fpRaised s t e
    exec (.fpIllegal w) s = fpRaised s s .opCode
      ∧ (o.mode = .register → (o.reg = .sp ∨ o.reg = .pc) →
        raises [.clrf o, .tstf o, .absf o, .negf o, .mulf ac o, .modf ac o, .addf ac o, .ldf ac o, .subf ac o, .cmpf ac o,
          .stf ac o, .divf ac o, .stcfd ac o, .ldcdf ac o] s .opCode)
      ∧ (∀ l v s2, fpSourceAt md.fmt.other o s l v s2 → undefinedTrap md l v = true →
        raises [.ldcdf ac o] (fccSet (fccOfValue v false) s2) .undefinedVariable)
      ∧ ∀ l v s2, fpSourceAt md.fmt o s l v s2 →
        (undefinedTrap md l v = true →
          raises [.addf ac o, .subf ac o, .mulf ac o, .divf ac o, .modf ac o, .cmpf ac o] s2 .undefinedVariable
            ∧ raises [.ldf ac o, .tstf o] (fccSet (fccOfValue v false) s2) .undefinedVariable
            ∧ ∀ t, writeFp md.fmt 0 l s2 = .ok ⟨⟩ t →
              raises [.absf o, .negf o] (fccSet { n := false, z := true, v := false, c := false } t) .undefinedVariable)
          ∧ (undefinedTrap md l v = false → fpExp v = 0 → raises [.divf ac o] s2 .divideByZero)
          ∧ (undefinedTrap md l v = false → ∀ e,
            let stored (r : Delivered) (t : State) : State :=
              fccSet (fccOfValue r.value r.fv) (accWritten md.fmt (acIndex ac) r.value t)
            let raisesAfter (i : Instr) (r : Delivered) (t : State) : Prop := r.error = some e → raises [i] (stored r t) e
            raisesAfter (.addf ac o) (fpAdd md a v) s2 ∧ raisesAfter (.subf ac o) (fpSub md a v) s2
              ∧ raisesAfter (.mulf ac o) (fpMul md a v) s2
              ∧ (fpExp v ≠ 0 → raisesAfter (.divf ac o) (fpDiv md a v) s2)
              ∧ (let r := fpMod md (Config.freeQuad s2.free) a v
                 let t : State := { s2 with free := s2.free + 1 }
                 raisesAfter (.modf ac o) r.part
                  (match ac with
                    | .ac0 => accWritten md.fmt 1 r.whole t
                    | .ac2 => accWritten md.fmt 3 r.whole t
                    | .ac1 => t
                    | .ac3 => t)))

/-! Commercial instructions. -/

/-- Where the commercial instructions find their operands (spec/48_cis_character.md R583, R587, R588): in registers,
or, in the in-line form, through words fetched one after the other before any descriptor is read, descriptors in the
same order; a long integer in R2 and R3, or in memory with its low word first (spec/49_cis_decimal.md R647). That the words
are fetched before any descriptor is read is D43, which word points at which descriptor D48 (log 32). And L2Dr and L3Dr: all
pointers and descriptors are read from the register's first value on; then the register is stepped; then the descriptors are
loaded, and win; no code changes (R585, R586). That the loads win over the autoincrements is D46 (log 32); that the codes stay,
against R33, is the model's reading (log 55). -/
def Obligations.CisOperands : Prop :=
  (∀ (s u s1 s2 : State) (r : Reg) (a : Word) (x y : Desc), s.cfg.cisPresent = true → readReg r s = .ok a u →
    let describes (p : Word) (s : State) (d : Desc) (t : State) : Prop :=
      ∃ q v w, readWord p s = .ok q v ∧ readWord q v = .ok d.fst w ∧ readWord (q + 2) w = .ok d.snd t
    describes a u x s1 → describes (a + 2) s1 y s2 →
    exec (.l2d r) s = completed (withWords s2 [(r, a + 4), (.r0, x.fst), (.r1, x.snd), (.r2, y.fst), (.r3, y.snd)])
      ∧ ∀ z s3, describes (a + 4) s2 z s3 →
        exec (.l3d r) s = completed (withWords s3
          [(r, a + 6), (.r0, x.fst), (.r1, x.snd), (.r2, y.fst), (.r3, y.snd), (.r4, z.fst), (.r5, z.snd)])) ∧
  (∀ s : State,
    let d1 : Desc := { fst := s.regs.r0, snd := s.regs.r1 }
    let d2 : Desc := { fst := s.regs.r2, snd := s.regs.r3 }
    let d3 : Desc := { fst := s.regs.r4, snd := s.regs.r5 }
    (∀ translated, moveOps .register translated s = .ok { src := d1, dst := d2, fill := s.regs.r4, table := s.regs.r5 } s)
      ∧ charSearchOps .register s = .ok (d1, s.regs.r4) s ∧ compareOps .register s = .ok (d1, d2, s.regs.r4) s
      ∧ threeDescs .register s = .ok (d1, d2, d3) s ∧ shiftOps .register s = .ok (d1, d2, s.regs.r4) s
      ∧ descPair .register s = .ok (d1, d2) s ∧ toLongOps .register s = .ok (d1, 0) s
      ∧ fromLongOps .register s = .ok (d1, { hi := s.regs.r2, lo := s.regs.r3 }) s
      ∧ twoDescs .register .r2 .r3 s = .ok (d1, d2) s ∧ twoDescs .register .r4 .r5 s = .ok (d1, d3) s) ∧
  ∀ (s s1 s2 : State) (p q : Word), fetchWord s = .ok p s1 → fetchWord s1 = .ok q s2 →
    let describes (a : Word) (u : State) (d : Desc) (v : State) : Prop :=
      ∃ x, readWord a u = .ok d.fst x ∧ readWord (a + 2) x = .ok d.snd v
    (∀ a t, describes p s2 a t → charSearchOps .inLine s = .ok (a, q) t ∧ toLongOps .inLine s = .ok (a, q) t)
      ∧ (∀ a b u t, describes p s2 a u → describes q u b t →
        descPair .inLine s = .ok (a, b) t ∧ (∀ even odd, twoDescs .inLine even odd s = .ok (a, b) t)
          ∧ fromLongOps .inLine s = .ok (a, { hi := b.snd, lo := b.fst }) t)
      ∧ ∀ w s3, fetchWord s2 = .ok w s3 →
        (∀ a b u t, describes p s3 a u → describes q u b t →
          moveOps .inLine false s = .ok { src := a, dst := b, fill := w, table := 0 } t
            ∧ compareOps .inLine s = .ok (a, b, w) t ∧ shiftOps .inLine s = .ok (a, b, w) t)
          ∧ (∀ a b c u v t, describes p s3 a u → describes q u b v → describes w v c t →
            threeDescs .inLine s = .ok (a, b, c) t)
          ∧ ∀ x s4 a b u t, fetchWord s3 = .ok x s4 → describes p s4 a u → describes q u b t →
            moveOps .inLine true s = .ok { src := a, dst := b, fill := w, table := x } t

/-- MOVC, MOVRC and MOVTC in both forms (spec/48_cis_character.md R589, R599 to R602): the part of the source that is moved
is read whole, then the destination is stored in ascending order, justified at its most or its least significant end and
filled; the codes compare the lengths; the register form leaves the number of characters not moved in R0 and clears R1 to
R3, the in-line form leaves every register. A fill word with a high byte and a table that cannot be read make the effect
unpredictable (R581, R582, log 34); a destination that overlaps the table takes free bytes and codes (R602, log 33). Overlap
with the table is judged by physical location (log 32); a destination string that writes the PS sets no codes by D5 (log 9).
That each runs to its end in one step, never suspended and with nothing written below R6, is the model's choice (D41, log
31). Begun with PS<8> set, each is unpredictable (spec/48_cis_character.md R590, D41, log 31). -/
def Obligations.CharacterMoves : Prop :=
  (∀ s : State, s.cfg.cisPresent = true → s.ps.getLsbD 8 = true →
    ∀ i ∈ ([.movc, .movrc, .movtc, .movci, .movrci, .movtci] : List Instr),
      exec i s = runInstr (effectUnpredictable (s.regs.pc - 2)) s) ∧
  ∀ (s s1 : State) (form : CisForm) (translated : Bool) (m : MoveOps), s.cfg.cisPresent = true → s.ps.getLsbD 8 = false →
    moveOps form translated s = .ok m s1 →
    let n := min m.src.fst.toNat m.dst.fst.toNat
    let filling := List.replicate (m.dst.fst.toNat - n) (lowByte m.fill)
    let cleared (t : State) : State := match form with
      | .register => withWords t [(.r0, m.src.fst - BitVec.ofNat 16 n), (.r1, 0), (.r2, 0), (.r3, 0)]
      | .inLine => t
    let ends (p : Bool) (t : State) : Host.Outcome State Fault Refusal :=
      completed (cisEnd p (cmpCodes m.src.fst m.dst.fst) (cleared t))
    let unpredictable : Host.Outcome State Fault Refusal := runInstr (effectUnpredictable (s.regs.pc - 2)) s1
    let moves : List Instr := match translated, form with
      | false, .register => [.movc, .movrc]
      | false, .inLine => [.movci, .movrci]
      | true, .register => [.movtc]
      | true, .inLine => [.movtci]
    (highByte m.fill ≠ 0 → ∀ i ∈ moves, exec i s = unpredictable) ∧
    (highByte m.fill = 0 → translated = true →
      let movt : Host.Outcome State Fault Refusal := exec (match form with
        | .register => .movtc
        | .inLine => .movtci) s
      (s1.tableReadable m.table = false → movt = unpredictable)
        ∧ (s1.tableReadable m.table = true →
          s1.overlaps (byteAddrs m.dst.snd m.dst.fst.toNat) (byteAddrs m.table 256) = true →
          ∀ bytes s2 free s3 p t, readBytes (byteAddrs m.src.snd n) s1 = .ok bytes s2 →
            anyBytes m.dst.fst.toNat s2 = .ok free s3 → storeBytes m.dst.snd free s3 = .ok p t →
            ∃ k, movt = completed (cisEnd p k (cleared { t with free := t.free + 1 })))) ∧
    (highByte m.fill = 0 →
    (translated = false → ∀ bytes s2 p t, readBytes (byteAddrs m.src.snd n) s1 = .ok bytes s2 →
      storeBytes m.dst.snd (bytes ++ filling) s2 = .ok p t →
      exec (match form with
        | .register => .movc
        | .inLine => .movci) s = ends p t)
      ∧ (translated = false → ∀ bytes s2 p t,
        readBytes (byteAddrs (m.src.snd + (m.src.fst - BitVec.ofNat 16 n)) n) s1 = .ok bytes s2 →
        storeBytes m.dst.snd (filling ++ bytes) s2 = .ok p t →
        exec (match form with
          | .register => .movrc
          | .inLine => .movrci) s = ends p t)
      ∧ (translated = true → s1.tableReadable m.table = true →
        s1.overlaps (byteAddrs m.dst.snd m.dst.fst.toNat) (byteAddrs m.table 256) = false →
        ∀ bytes s2 s3 p q t, readBytes (byteAddrs m.src.snd n) s1 = .ok bytes s2 →
        storeTranslated m.table m.dst.snd bytes s2 = .ok p s3 →
        storeBytes (m.dst.snd + BitVec.ofNat 16 n) filling s3 = .ok q t →
        exec (match form with
          | .register => .movtc
          | .inLine => .movtci) s = ends (p || q) t))

/-- The searches in both forms (spec/48_cis_character.md R604 to R608): LOCC and SKPC stop at the first character equal, or
unequal, to theirs, SCANC and SPANC at the first in, or not in, their set; R0 and R1 then describe the rest of the string
and the codes are those of TST R0. A character or a mask with a high byte and a table that cannot be read make the effect
unpredictable (R582, R584, log 34). That each runs to its end in one step, never suspended and with nothing written below
R6, is the model's choice (D41, log 31). Begun with PS<8> set, each is unpredictable (spec/48_cis_character.md R590, D41,
log 31). -/
def Obligations.CharacterSearches : Prop :=
  (∀ s : State, s.cfg.cisPresent = true → s.ps.getLsbD 8 = true →
    ∀ i ∈ ([.locc, .skpc, .scanc, .spanc, .locci, .skpci, .scanci, .spanci] : List Instr),
      exec i s = runInstr (effectUnpredictable (s.regs.pc - 2)) s) ∧
  ∀ (s s1 t : State) (form : CisForm) (src : Desc), s.cfg.cisPresent = true → s.ps.getLsbD 8 = false →
    let finds (i : Instr) (index : Nat) : Prop :=
      let left := src.fst - BitVec.ofNat 16 index
      exec i s = completed (cisEnd false { n := left.getLsbD 15, z := left == 0, v := false, c := false }
        (withWords t [(.r0, left), (.r1, src.snd + BitVec.ofNat 16 index)]))
    let addresses := byteAddrs src.snd src.fst.toNat
    let unpredictable : Host.Outcome State Fault Refusal := runInstr (effectUnpredictable (s.regs.pc - 2)) s1
    (∀ w, charSearchOps form s = .ok (src, w) s1 → highByte w ≠ 0 →
      ∀ i ∈ (match form with
        | .register => [.locc, .skpc]
        | .inLine => [.locci, .skpci] : List Instr), exec i s = unpredictable) ∧
    (∀ set, twoDescs form .r4 .r5 s = .ok (src, set) s1 → highByte set.fst ≠ 0 ∨ s1.tableReadable set.snd = false →
      ∀ i ∈ (match form with
        | .register => [.scanc, .spanc]
        | .inLine => [.scanci, .spanci] : List Instr), exec i s = unpredictable) ∧
    (∀ w index, charSearchOps form s = .ok (src, w) s1 → highByte w = 0 →
      (searchFrom (fun b => pure (b == lowByte w)) 0 addresses s1 = .ok index t →
        finds (match form with
          | .register => .locc
          | .inLine => .locci) index)
        ∧ (searchFrom (fun b => pure (b != lowByte w)) 0 addresses s1 = .ok index t →
          finds (match form with
            | .register => .skpc
            | .inLine => .skpci) index))
      ∧ ∀ set index, twoDescs form .r4 .r5 s = .ok (src, set) s1 → highByte set.fst = 0 → s1.tableReadable set.snd = true →
        (searchFrom (inSet (lowByte set.fst) set.snd) 0 addresses s1 = .ok index t →
          finds (match form with
            | .register => .scanc
            | .inLine => .scanci) index)
          ∧ (searchFrom (fun c => (fun b => !b) <$> inSet (lowByte set.fst) set.snd c) 0 addresses s1 = .ok index t →
            finds (match form with
              | .register => .spanc
              | .inLine => .spanci) index)

/-- CMPC and MATC in both forms (spec/48_cis_character.md R610, R611): CMPC compares the first unequal characters of the
strings, the shorter one extended with the fill character, as CMPB would; MATC returns the rest of the source from the first
match of the object on, a vacant source matching nothing. A fill word with a high byte makes the effect unpredictable (R582,
log 34). In which order the characters are read, and that a trial stops at its first mismatch, is the model's choice (log
56); that each runs to its end in one step, never suspended and with nothing written below R6, too (D41, log 31). Begun with
PS<8> set, each is unpredictable (spec/48_cis_character.md R590, D41, log 31). -/
def Obligations.CompareAndMatch : Prop :=
  (∀ s : State, s.cfg.cisPresent = true → s.ps.getLsbD 8 = true →
    ∀ i ∈ ([.cmpc, .matc, .cmpci, .matci] : List Instr),
      exec i s = runInstr (effectUnpredictable (s.regs.pc - 2)) s) ∧
  ∀ (s s1 t : State) (form : CisForm) (a b : Desc), s.cfg.cisPresent = true → s.ps.getLsbD 8 = false →
    (∀ w, compareOps form s = .ok (a, b, w) s1 → highByte w ≠ 0 →
      exec (match form with
        | .register => .cmpc
        | .inLine => .cmpci) s = runInstr (effectUnpredictable (s.regs.pc - 2)) s1) ∧
    (∀ w index unequal, compareOps form s = .ok (a, b, w) s1 → highByte w = 0 →
      compareFrom a b (lowByte w) (max a.fst.toNat b.fst.toNat) 0 s1 = .ok (index, unequal) t →
      let rest (d : Desc) : Word := BitVec.ofNat 16 (min index d.fst.toNat)
      exec (match form with
        | .register => .cmpc
        | .inLine => .cmpci) s =
        completed (cisEnd false
          (match unequal with
            | some (c1, c2) => cmpCodes c1 c2
            | none => { n := false, z := true, v := false, c := false })
          (match form with
            | .register => withWords t
                [(.r0, a.fst - rest a), (.r1, a.snd + rest a), (.r2, b.fst - rest b), (.r3, b.snd + rest b)]
            | .inLine => t)))
      ∧ ∀ found, twoDescs form .r2 .r3 s = .ok (a, b) s1 →
        matchFrom a b (if a.fst = 0 then 0 else a.fst.toNat + 1 - b.fst.toNat) 0 s1 = .ok found t →
        let index := found.getD a.fst.toNat
        let left := a.fst - BitVec.ofNat 16 index
        exec (match form with
          | .register => .matc
          | .inLine => .matci) s =
          completed (cisEnd false { n := left.getLsbD 15, z := left == 0, v := false, c := false }
            (withWords t [(.r0, left), (.r1, a.snd + BitVec.ofNat 16 index)]))

/-- What the searches find in strings whose bytes can be read without a side effect (spec/48_cis_character.md R605, R610,
R611): the first byte that satisfies the condition, which may itself read memory; the first index at which the extended
strings differ; the first index at which the object is a prefix of the rest of the source. A character is in a set when the
table's byte for it and the mask have a bit in common, and a table is readable when each of its 256 bytes is (R584, log
32). -/
def Obligations.SearchesFindFirst : Prop :=
  ∀ (s : State) (a b : Desc) (as bs : List Byte),
    let holds (d : Desc) (ds : List Byte) : Prop :=
      ds.length = d.fst.toNat ∧ ∀ i (h : i < ds.length), readByte (d.snd + BitVec.ofNat 16 i) s = .ok ds[i] s
    (∀ (mask m c : Byte) (table : Word) (t : State), readByte (table + c.setWidth 16) s = .ok m t →
      inSet mask table c s = .ok (m &&& mask != 0) t) ∧
    (s.bus.left ≠ some 0 → ∀ table : Word,
      (s.tableReadable table = true ↔ ∀ i < 256, ∃ m t, readByte (table + BitVec.ofNat 16 i) s = .ok m t)) ∧
    (holds a as → holds b bs →
    (∀ (stop : Byte → M Bool) (f : Byte → Bool), (∀ c, stop c s = .ok (f c) s) →
      searchFrom stop 0 (byteAddrs a.snd a.fst.toNat) s = .ok (as.findIdx f) s)
      ∧ (∀ fill : Byte, ∃ i r, compareFrom a b fill (max a.fst.toNat b.fst.toNat) 0 s = .ok (i, r) s
        ∧ (∀ j < i, as.getD j fill = bs.getD j fill)
        ∧ (match r with
          | none => i = max a.fst.toNat b.fst.toNat
          | some (c1, c2) => i < max a.fst.toNat b.fst.toNat ∧ as.getD i fill = c1 ∧ bs.getD i fill = c2 ∧ c1 ≠ c2))
      ∧ ∃ r, matchFrom a b (a.fst.toNat + 1 - b.fst.toNat) 0 s = .ok r s
        ∧ (match r with
          | none => ∀ j, j + b.fst.toNat ≤ a.fst.toNat → (as.drop j).take b.fst.toNat ≠ bs
          | some i => i + b.fst.toNat ≤ a.fst.toNat ∧ (as.drop i).take b.fst.toNat = bs
              ∧ ∀ j < i, (as.drop j).take b.fst.toNat ≠ bs))

/-- Strings in memory with the MMU disabled and no DMA meanwhile. Read, byte `i` is that at the address plus `i`, modulo 2^16,
and nothing changes; stored, byte `i` goes there, and every other byte of memory and all other state stay; translated, byte
`i` stored is the table's byte for character `i`, the table lying outside what is stored (spec/48_cis_character.md R583, R591,
R602). That addresses wrap modulo 2^16 is D44 (log 32). -/
def Obligations.StringStore : Prop :=
  ∀ (s : State) (a : Word) (bytes : List Byte), s.quiet = true → s.mmu.sr0.getLsbD 0 = false → bytes.length ≤ 65536 →
    let placeAt (b : Word) (i : Nat) : Nat := memoryAddr s.cfg (unmapped (b + BitVec.ofNat 16 i))
    let plain (b : Word) (n : Nat) : Prop := ∀ i < n, plainMemory s (unmapped (b + BitVec.ofNat 16 i)) = true
    let place := placeAt a
    plain a bytes.length →
    ((∀ i (h : i < bytes.length), bytes[i] = s.mem.read (place i)) → readBytes (byteAddrs a bytes.length) s = .ok bytes s)
      ∧ (s.mem.wf = true →
        (∃ t, storeBytes a bytes s = .ok false t ∧ t = { s with mem := t.mem }
          ∧ (∀ i (h : i < bytes.length), t.mem.read (place i) = bytes[i])
          ∧ ∀ x, (∀ i < bytes.length, x ≠ place i) → t.mem.read x = s.mem.read x)
          ∧ ∀ table, plain table 256 → (∀ i < bytes.length, ∀ c < 256, placeAt table c ≠ place i) →
            ∃ t, storeTranslated table a bytes s = .ok false t ∧ t = { s with mem := t.mem }
              ∧ (∀ i (h : i < bytes.length), t.mem.read (place i) = s.mem.read (placeAt table bytes[i].toNat))
              ∧ ∀ x, (∀ i < bytes.length, x ≠ place i) → t.mem.read x = s.mem.read x)

/-- The decimal instructions that compute one string from two, in both forms and classes (spec/49_cis_decimal.md R648,
R649, R660 to R663): with valid sources and no forbidden overlap the exact result is stored and sets the codes; the
register form clears R0 to R3; DIVP by zero sets V and C, its quotient, N and Z being any. Strings overlap when two of
their bytes lie in one place, which a sum or difference permits when all corresponding digits coincide (R650); the place
is the physical one (log 32). A descriptor that is not one of the class makes the effect unpredictable (R641, log 34); a
source that is not valid and a forbidden overlap leave any bytes and codes (log 33), all else being as with a result; a
result that writes the PS sets no codes by D5 (log 9). That each runs to its end in one step, never suspended and with
nothing written below R6, is the model's choice (D41, log 31). Begun with PS<8> set, each is unpredictable
(spec/48_cis_character.md R590, D41, log 31). -/
def Obligations.DecimalArithmetic : Prop :=
  (∀ s : State, s.cfg.cisPresent = true → s.ps.getLsbD 8 = true →
    ∀ i ∈ ([.addn, .subn, .addp, .subp, .mulp, .divp, .addni, .subni, .addpi, .subpi,
      .mulpi, .divpi] : List Instr),
      exec i s = runInstr (effectUnpredictable (s.regs.pc - 2)) s) ∧
  (∀ (s : State) (va : Word) (m : Mapped), translate s.mode va false s = .ok m s →
    s.placeOf va = some (if isIoPage m.pa then m.pa.toNat else memoryAddr s.cfg m.pa)) ∧
  (∀ (s : State) (rule : OverlapRule) (x y : Dec),
    let shared (as bs : List Word) : Prop := ∃ a ∈ as, ∃ b ∈ bs, ∃ p, s.placeOf a = some p ∧ s.placeOf b = some p
    let string (d : Dec) : List Word := byteAddrs d.adr (d.type.size d.len)
    let digit (d : Dec) (j : Nat) : Word := d.adr + BitVec.ofNat 16 (d.type.digitOffset d.len j)
    (∀ as bs, s.overlaps as bs = true ↔ shared as bs)
      ∧ (s.forbiddenOverlap rule x y = true ↔
        shared (string x) (string y)
          ∧ (rule = .coincident → ∃ j < min x.len y.len, s.placeOf (digit x j) ≠ s.placeOf (digit y j)))) ∧
  (∀ (s s1 : State) (form : CisForm) (a b c : Desc), s.cfg.cisPresent = true → s.ps.getLsbD 8 = false →
    threeDescs form s = .ok (a, b, c) s1 →
    let sums (cls : DecClass) : List Instr := match cls, form with
      | .numeric, .register => [.addn, .subn]
      | .numeric, .inLine => [.addni, .subni]
      | .packed, .register => [.addp, .subp]
      | .packed, .inLine => [.addpi, .subpi]
    let products (cls : DecClass) : List Instr := match cls, form with
      | .numeric, _ => []
      | .packed, .register => [.mulp, .divp]
      | .packed, .inLine => [.mulpi, .divpi]
    (∀ cls, ddesc a.fst a.snd cls = none ∨ ddesc b.fst b.snd cls = none ∨ ddesc c.fst c.snd cls = none →
      ∀ i ∈ sums cls ++ products cls, exec i s = runInstr (effectUnpredictable (s.regs.pc - 2)) s1)
      ∧ ∀ (cls : DecClass) (rule : OverlapRule) (x y d : Dec) (v1 v2 : Option Int) (s2 s3 s4 t : State) (free : List Byte)
        (p : Bool),
        ddesc a.fst a.snd cls = some x → ddesc b.fst b.snd cls = some y → ddesc c.fst c.snd cls = some d →
        x.read s1 = .ok v1 s2 → y.read s2 = .ok v2 s3 →
        v1 = none ∨ v2 = none ∨ s3.forbiddenOverlap rule x d = true ∨ s3.forbiddenOverlap rule y d = true →
        anyBytes (d.type.size d.len) s3 = .ok free s4 → storeBytes d.adr free s4 = .ok p t →
        let u : State := { t with free := t.free + 1 }
        ∀ i ∈ (match rule with
          | .coincident => sums cls
          | .never => products cls),
          ∃ k, exec i s = completed (cisEnd p k
            (match form with
              | .register => withWords u [(.r0, 0), (.r1, 0), (.r2, 0), (.r3, 0)]
              | .inLine => u))) ∧
  ∀ (s s1 s2 s3 t : State) (form : CisForm) (a b c : Desc) (x y d : Dec) (v1 v2 : Int) (p : Bool),
    s.cfg.cisPresent = true → s.ps.getLsbD 8 = false → threeDescs form s = .ok (a, b, c) s1 →
    let operands (cls : DecClass) (rule : OverlapRule) : Prop :=
      ddesc a.fst a.snd cls = some x ∧ ddesc b.fst b.snd cls = some y ∧ ddesc c.fst c.snd cls = some d
        ∧ s3.forbiddenOverlap rule x d = false ∧ s3.forbiddenOverlap rule y d = false
    let ends (k : Codes) : Host.Outcome State Fault Refusal :=
      completed (cisEnd p k
        (match form with
          | .register => withWords t [(.r0, 0), (.r1, 0), (.r2, 0), (.r3, 0)]
          | .inLine => t))
    let computes (register inLine : Instr) (v : Int) : Prop :=
      storeBytes d.adr (decResult d.type d.len v).1 s3 = .ok p t →
      exec (match form with
        | .register => register
        | .inLine => inLine) s = ends (decResult d.type d.len v).2
    x.read s1 = .ok (some v1) s2 → y.read s2 = .ok (some v2) s3 →
    (operands .numeric .coincident → computes .addn .addni (v2 + v1) ∧ computes .subn .subni (v2 - v1))
      ∧ (operands .packed .coincident → computes .addp .addpi (v2 + v1) ∧ computes .subp .subpi (v2 - v1))
      ∧ (operands .packed .never →
        computes .mulp .mulpi (v2 * v1)
          ∧ (v1 ≠ 0 → computes .divp .divpi (v2.tdiv v1))
          ∧ (v1 = 0 → ∀ free s4, anyBytes (d.type.size d.len) s3 = .ok free s4 → storeBytes d.adr free s4 = .ok p t →
            ∃ n z, exec (match form with
              | .register => .divp
              | .inLine => .divpi) s =
              completed (cisEnd p { n := n, z := z, v := true, c := true }
                (match form with
                  | .register => withWords { t with free := t.free + 1 } [(.r0, 0), (.r1, 0), (.r2, 0), (.r3, 0)]
                  | .inLine => { t with free := t.free + 1 }))))

/-- The other decimal instructions in both forms and classes (spec/49_cis_decimal.md R664 to R675): compare; shift by powers
of ten, a right shift rounded by the digit last shifted out; conversion between the classes, to a long integer and from one.
A long integer goes to R2 and R3, or to memory with its low word first (R647). A descriptor that is not one of the class,
and a shift word with a reserved bit, make the effect unpredictable (R641, R666, log 34); a source that is not valid, a
rounding digit above 9 and a forbidden overlap leave any result and codes (log 33), all else being as with a result. Overlap
is judged by physical location (log 32); what happens when a result's destination is the PS itself is D5 (log 9); that each
runs to its end in one step, never suspended and with nothing written below R6, is the model's choice (D41, log 31). Begun
with PS<8> set, each is unpredictable (spec/48_cis_character.md R590, D41, log 31). -/
def Obligations.DecimalConversions : Prop :=
  (∀ s : State, s.cfg.cisPresent = true → s.ps.getLsbD 8 = true →
    ∀ i ∈ ([.cmpn, .cmpp, .ashn, .ashp, .cvtnp, .cvtpn, .cvtnl, .cvtpl, .cvtln,
      .cvtlp, .cmpni, .cmppi, .ashni, .ashpi, .cvtnpi, .cvtpni, .cvtnli, .cvtpli, .cvtlni, .cvtlpi] : List Instr),
      exec i s = runInstr (effectUnpredictable (s.regs.pc - 2)) s) ∧
  (∀ (q : Word) (l : Long) (s : State), putLong .register q l s = .ok false ((s.withReg .r2 l.hi).withReg .r3 l.lo)) ∧
  (∀ (q : Word) (l : Long) (s t u : State) (p p' : Bool), writeWord q l.lo s = .ok p t → writeWord (q + 2) l.hi t = .ok p' u →
    putLong .inLine q l s = .ok (p || p') u) ∧
  (∀ (s s1 : State) (form : CisForm) (cls : DecClass) (a b : Desc), s.cfg.cisPresent = true → s.ps.getLsbD 8 = false →
    let pick (numeric numericI packed packedI : Instr) : Instr :=
      match cls, form with
      | .numeric, .register => numeric
      | .numeric, .inLine => numericI
      | .packed, .register => packed
      | .packed, .inLine => packedI
    let other : DecClass := match cls with
      | .numeric => .packed
      | .packed => .numeric
    let compares := pick .cmpn .cmpni .cmpp .cmppi
    let converts := pick .cvtnp .cvtnpi .cvtpn .cvtpni
    let shifts := pick .ashn .ashni .ashp .ashpi
    let toLong := pick .cvtnl .cvtnli .cvtpl .cvtpli
    let unpredictable (i : Instr) : Prop := exec i s = runInstr (effectUnpredictable (s.regs.pc - 2)) s1
    let leaves (i : Instr) (regs : List (Reg × Word)) (p : Bool) (t : State) : Prop :=
      let u : State := { t with free := t.free + 1 }
      ∃ k, exec i s = completed (cisEnd p k
        (match form with
          | .register => withWords u regs
          | .inLine => u))
    (descPair form s = .ok (a, b) s1 →
      (ddesc a.fst a.snd cls = none ∨ ddesc b.fst b.snd cls = none → unpredictable compares)
        ∧ (ddesc a.fst a.snd cls = none ∨ ddesc b.fst b.snd other = none → unpredictable converts))
      ∧ (∀ sd, shiftOps form s = .ok (a, b, sd) s1 →
        sd &&& 0o170000 ≠ 0 ∨ ddesc a.fst a.snd cls = none ∨ ddesc b.fst b.snd cls = none → unpredictable shifts)
      ∧ (∀ q, toLongOps form s = .ok (a, q) s1 → ddesc a.fst a.snd cls = none → unpredictable toLong)
      ∧ (∀ l : Long, fromLongOps form s = .ok (a, l) s1 → ddesc a.fst a.snd cls = none →
        unpredictable (pick .cvtln .cvtlni .cvtlp .cvtlpi))
      ∧ ∀ (x : Dec) (v : Option Int) (s2 : State), ddesc a.fst a.snd cls = some x → x.read s1 = .ok v s2 →
        (∀ y w s3, descPair form s = .ok (a, b) s1 → ddesc b.fst b.snd cls = some y → y.read s2 = .ok w s3 →
          v = none ∨ w = none → leaves compares [(.r0, 0), (.r1, 0), (.r2, 0), (.r3, 0)] false s3)
          ∧ (∀ sd y free s3 p t, shiftOps form s = .ok (a, b, sd) s1 → sd &&& 0o170000 = 0 → ddesc b.fst b.snd cls = some y →
            v = none ∨ 9 < sd.toNat / 256 % 16 ∨ s2.forbiddenOverlap .never x y = true →
            anyBytes (y.type.size y.len) s2 = .ok free s3 → storeBytes y.adr free s3 = .ok p t →
            leaves shifts [(.r0, 0), (.r1, 0), (.r4, 0)] p t)
          ∧ (∀ y free s3 p t, descPair form s = .ok (a, b) s1 → ddesc b.fst b.snd other = some y →
            v = none ∨ s2.forbiddenOverlap .never x y = true →
            anyBytes (y.type.size y.len) s2 = .ok free s3 → storeBytes y.adr free s3 = .ok p t →
            leaves converts [(.r0, 0), (.r1, 0)] p t)
          ∧ ∀ q p t, toLongOps form s = .ok (a, q) s1 → v = none →
            (let l : Long := { hi := Config.freeWord s2.free, lo := Config.freeWord (s2.free + 1) }
             putLong form q l { s2 with free := s2.free + 2 } = .ok p t) →
            leaves toLong [(.r0, 0), (.r1, 0)] p t) ∧
  ∀ (s s1 s2 s3 t : State) (form : CisForm) (cls : DecClass) (a b : Desc) (x y : Dec) (v w : Int) (p : Bool),
    s.cfg.cisPresent = true → s.ps.getLsbD 8 = false →
    let pick (numeric numericI packed packedI : Instr) : Instr :=
      match cls, form with
      | .numeric, .register => numeric
      | .numeric, .inLine => numericI
      | .packed, .register => packed
      | .packed, .inLine => packedI
    let clears (regs : List (Reg × Word)) (k : Codes) (t : State) : Host.Outcome State Fault Refusal :=
      completed (cisEnd p k
        (match form with
          | .register => withWords t regs
          | .inLine => t))
    ddesc a.fst a.snd cls = some x →
    (descPair form s = .ok (a, b) s1 → ddesc b.fst b.snd cls = some y → x.read s1 = .ok (some v) s2 →
      y.read s2 = .ok (some w) s3 →
      exec (pick .cmpn .cmpni .cmpp .cmppi) s =
        completed (cisEnd false { n := decide (v < w), z := decide (v = w), v := false, c := false }
          (match form with
            | .register => withWords s3 [(.r0, 0), (.r1, 0), (.r2, 0), (.r3, 0)]
            | .inLine => s3)))
      ∧ (∀ sd, shiftOps form s = .ok (a, b, sd) s1 → sd.toNat < 0o5000 → ddesc b.fst b.snd cls = some y →
        x.read s1 = .ok (some v) s2 → s2.forbiddenOverlap .never x y = false →
        let count := (sd.extractLsb' 0 8).toInt
        let m := v.natAbs
        let k := (-count).toNat
        let shifted : Nat :=
          if 0 ≤ count then m * 10 ^ count.toNat
          else m / 10 ^ k + (if 10 ≤ m / 10 ^ (k - 1) % 10 + sd.toNat / 256 then 1 else 0)
        let r := decResult y.type y.len (if v < 0 then -(shifted : Int) else shifted)
        storeBytes y.adr r.1 s2 = .ok p t →
        exec (pick .ashn .ashni .ashp .ashpi) s = clears [(.r0, 0), (.r1, 0), (.r4, 0)] r.2 t)
      ∧ (descPair form s = .ok (a, b) s1 →
        ddesc b.fst b.snd (match cls with
          | .numeric => .packed
          | .packed => .numeric) = some y →
        x.read s1 = .ok (some v) s2 → s2.forbiddenOverlap .never x y = false →
        storeBytes y.adr (decResult y.type y.len v).1 s2 = .ok p t →
        exec (pick .cvtnp .cvtnpi .cvtpn .cvtpni) s = clears [(.r0, 0), (.r1, 0)] (decResult y.type y.len v).2 t)
      ∧ (∀ q, toLongOps form s = .ok (a, q) s1 → x.read s1 = .ok (some v) s2 →
        let z := BitVec.ofInt 32 v
        let k : Codes :=
          { n := z.getLsbD 31, z := z == 0, v := decide (v < -0o20000000000 ∨ 0o17777777777 < v),
            c := decide (v < 0) && z != 0 }
        putLong form q { hi := z.extractLsb' 16 16, lo := z.extractLsb' 0 16 } s2 = .ok p t →
        exec (pick .cvtnl .cvtnli .cvtpl .cvtpli) s = clears [(.r0, 0), (.r1, 0)] k t)
      ∧ ∀ l : Long, fromLongOps form s = .ok (a, l) s1 →
        let r := decResult x.type x.len (l.hi.toInt * 65536 + l.lo.toNat)
        storeBytes x.adr r.1 s1 = .ok p t →
        exec (pick .cvtln .cvtlni .cvtlp .cvtlpi) s = clears [(.r2, 0), (.r3, 0)] r.2 t

/-- A decimal string that can hold a value holds it: what is stored reads back as the value, with N, Z and V telling its
sign and that it fits; a value that does not fit sets V and leaves its low digits; C is clear (spec/49_cis_decimal.md R640 to
R646, R649). A descriptor gives the type, the number of digits and the address, unless a reserved bit is set or the type is
of the other class (R641), and a source's value is that of the bytes read from there. That an unsigned type never sets N is
D47 (log 32); that the bytes are read in ascending order is the model's choice (log 56). -/
def Obligations.DecimalRoundTrip : Prop :=
  (∀ (d : Dec) (bytes : List Byte) (s t : State), readBytes (byteAddrs d.adr (d.type.size d.len)) s = .ok bytes t →
    d.read s = .ok (decValue d.type d.len bytes) t) ∧
  (∀ (w0 w1 : Word) (cls : DecClass) (d : Dec),
    let code := w0.toNat / 4096 % 8
    let types : List DecType := [.signedZoned, .unsignedZoned, .trailingOverpunched, .leadingOverpunched, .trailingSeparate,
      .leadingSeparate, .signedPacked, .unsignedPacked]
    ddesc w0 w1 cls = some d ↔
      w0 &&& 0o107740 = 0 ∧ cls = (if code < 6 then .numeric else .packed)
        ∧ types[code]? = some d.type ∧ d.len = w0.toNat % 32 ∧ d.adr = w1) ∧
  (∀ (type : DecType) (n : Nat) (v : Int),
    let r := decResult type n v
    let kept := v.natAbs % 10 ^ n
    r.2.c = false ∧ r.2.z = decide (kept = 0) ∧ r.2.n = decide (v < 0 ∧ kept ≠ 0 ∧ type.signed = true)
      ∧ decValue type n r.1 = some (if v < 0 ∧ type.signed = true then -(kept : Int) else kept)) ∧
  ∀ (type : DecType) (n : Nat) (v : Int), (v < 0 → type.signed = true) →
    let r := decResult type n v
    r.1.length = type.size n ∧ r.2.v = decide (10 ^ n ≤ v.natAbs)
      ∧ (v.natAbs < 10 ^ n → decValue type n r.1 = some v ∧ r.2.n = decide (v < 0) ∧ r.2.z = decide (v = 0))
      ∧ (10 ^ n ≤ v.natAbs →
        decValue type n r.1 = some (if v < 0 then -((v.natAbs % 10 ^ n : Nat) : Int) else (v.natAbs % 10 ^ n : Nat)))

/-- A reference that a commercial instruction cannot make ends it: the trap sequence of the abort (250, 4 or 114) is
performed on the state the reference left (spec/60_exceptions.md R705, R706, R708, spec/48_cis_character.md R588, R591). So
it is for the pointers and descriptors of L2Dr and L3Dr; for each in-line word of every in-line form and each descriptor it
points at; for the bytes of a character string that is moved, searched, compared or matched, and the bytes a move stores,
free ones included where the results are unpredictable (R602). That an abort leaves the registers and the codes is D43 (log
32), that it samples no trace request D49 (log 35); the order of the reads of CMPC and MATC is the model's choice (log 56);
overlap is judged by physical location (log 32), the free bytes are log 33. -/
def Obligations.CharacterAbort : Prop :=
  ∀ (k : AbortKind) (s u : State), s.cfg.cisPresent = true →
    let trap (is : List Instr) : Prop := ∀ i ∈ is, exec i s =
      .next (performTrap
        { vector := match k with
            | .mmu => 0o250
            | .timeout => 0o4
            | .parity => 0o114
          kind := .ordinary } u)
    (∀ (r : Reg) (a : Word) (v : State), readReg r s = .ok a v →
      let fails (p : Word) (v : State) : Prop :=
        readWord p v = .error (.abort k) u ∨ ∃ q w, readWord p v = .ok q w ∧ descsFail k [q] w u
      let loads (p : Word) (v w : State) : Prop :=
        ∃ q x lo y hi, readWord p v = .ok q x ∧ readWord q x = .ok lo y ∧ readWord (q + 2) y = .ok hi w
      (fails a v → trap [.l2d r, .l3d r])
        ∧ ∀ w, loads a v w →
          (fails (a + 2) w → trap [.l2d r, .l3d r]) ∧ ∀ x, loads (a + 2) w x → fails (a + 4) x → trap [.l3d r])
      ∧ (s.ps.getLsbD 8 = false →
        (let inLine (words pointers : Nat) (is : List Instr) : Prop :=
           (fetchFails k words s u ∨ ∃ ws t, ws.length = words ∧ fetchesWords ws s t ∧ descsFail k (ws.take pointers) t u) →
           trap is
         inLine 2 1 [.locci, .skpci, .cvtnli, .cvtpli]
          ∧ inLine 2 2 [.scanci, .spanci, .matci, .cmpni, .cmppi, .cvtnpi, .cvtpni, .cvtlni, .cvtlpi]
          ∧ inLine 3 2 [.movci, .movrci, .cmpci, .ashni, .ashpi]
          ∧ inLine 3 3 [.addni, .subni, .addpi, .subpi, .mulpi, .divpi] ∧ inLine 4 2 [.movtci])
        ∧ ∀ (form : CisForm) (s1 : State),
          let traps (register inLine : Instr) : Prop := trap [match form with
            | .register => register
            | .inLine => inLine]
          (∀ translated m, moveOps form translated s = .ok m s1 → highByte m.fill = 0 →
            let n := min m.src.fst.toNat m.dst.fst.toNat
            let filling := List.replicate (m.dst.fst.toNat - n) (lowByte m.fill)
            (translated = false →
              let reads (a : Word) (register inLine : Instr) : Prop :=
                readBytes (byteAddrs a n) s1 = .error (.abort k) u → traps register inLine
              let writes (a : Word) (f : List Byte → List Byte) (register inLine : Instr) : Prop :=
                ∀ bytes s2, readBytes (byteAddrs a n) s1 = .ok bytes s2 →
                  storeBytes m.dst.snd (f bytes) s2 = .error (.abort k) u → traps register inLine
              let back := m.src.snd + (m.src.fst - BitVec.ofNat 16 n)
              reads m.src.snd .movc .movci ∧ reads back .movrc .movrci
                ∧ writes m.src.snd (· ++ filling) .movc .movci ∧ writes back (filling ++ ·) .movrc .movrci)
              ∧ (translated = true → s1.tableReadable m.table = true →
                (readBytes (byteAddrs m.src.snd n) s1 = .error (.abort k) u → traps .movtc .movtci)
                  ∧ ∀ bytes s2, readBytes (byteAddrs m.src.snd n) s1 = .ok bytes s2 →
                    if s1.overlaps (byteAddrs m.dst.snd m.dst.fst.toNat) (byteAddrs m.table 256) then
                      ∀ free s3, anyBytes m.dst.fst.toNat s2 = .ok free s3 →
                        storeBytes m.dst.snd free s3 = .error (.abort k) u → traps .movtc .movtci
                    else
                      (storeTranslated m.table m.dst.snd bytes s2 = .error (.abort k) u → traps .movtc .movtci)
                        ∧ ∀ p s3, storeTranslated m.table m.dst.snd bytes s2 = .ok p s3 →
                          storeBytes (m.dst.snd + BitVec.ofNat 16 n) filling s3 = .error (.abort k) u → traps .movtc .movtci))
            ∧ (∀ src w, charSearchOps form s = .ok (src, w) s1 → highByte w = 0 →
              let fails (stop : Byte → Bool) : Prop :=
                searchFrom (fun b => pure (stop b)) 0 (byteAddrs src.snd src.fst.toNat) s1 = .error (.abort k) u
              (fails (· == lowByte w) → traps .locc .locci) ∧ (fails (· != lowByte w) → traps .skpc .skpci))
            ∧ (∀ src set, twoDescs form .r4 .r5 s = .ok (src, set) s1 → highByte set.fst = 0 →
              s1.tableReadable set.snd = true →
              let fails (stop : Byte → M Bool) : Prop :=
                searchFrom stop 0 (byteAddrs src.snd src.fst.toNat) s1 = .error (.abort k) u
              (fails (inSet (lowByte set.fst) set.snd) → traps .scanc .scanci)
                ∧ (fails (fun c => (fun b => !b) <$> inSet (lowByte set.fst) set.snd c) → traps .spanc .spanci))
            ∧ (∀ a b w, compareOps form s = .ok (a, b, w) s1 → highByte w = 0 →
              compareFrom a b (lowByte w) (max a.fst.toNat b.fst.toNat) 0 s1 = .error (.abort k) u → traps .cmpc .cmpci)
            ∧ (∀ a b, twoDescs form .r2 .r3 s = .ok (a, b) s1 →
              matchFrom a b (if a.fst = 0 then 0 else a.fst.toNat + 1 - b.fst.toNat) 0 s1 = .error (.abort k) u →
              traps .matc .matci))

/-- As CharacterAbort, for the decimal instructions in both forms and classes: a byte of a source string that cannot be read
ends the instruction in the trap of its abort, and so does a byte of a result that cannot be stored, be it the result's, or a
free one where the results are unpredictable or the divisor is 0 (spec/49_cis_decimal.md R646, R650, R663, R666), or a word of a
long integer (R647, R670). That an abort leaves the registers and the codes is D43 (log 32), that it samples no trace request
D49 (log 35); the order of the reads is the model's choice (log 56), overlap is judged by physical location (log 32), the free
bytes are log 33. -/
def Obligations.DecimalAbort : Prop :=
  ∀ (k : AbortKind) (s u s1 : State) (form : CisForm), s.cfg.cisPresent = true → s.ps.getLsbD 8 = false →
    let trap (is : List Instr) : Prop := ∀ i ∈ is, exec i s =
      .next (performTrap
        { vector := match k with
            | .mmu => 0o250
            | .timeout => 0o4
            | .parity => 0o114
          kind := .ordinary } u)
    (∀ (cls : DecClass) (rule : OverlapRule) (a b c : Desc) (x y d : Dec), threeDescs form s = .ok (a, b, c) s1 →
      ddesc a.fst a.snd cls = some x → ddesc b.fst b.snd cls = some y → ddesc c.fst c.snd cls = some d →
      let computing : List ((Int → Int → Option Int) × Instr) :=
        let add (v1 v2 : Int) : Option Int := some (v2 + v1)
        let sub (v1 v2 : Int) : Option Int := some (v2 - v1)
        match cls, rule, form with
        | .numeric, .coincident, .register => [(add, .addn), (sub, .subn)]
        | .numeric, .coincident, .inLine => [(add, .addni), (sub, .subni)]
        | .packed, .coincident, .register => [(add, .addp), (sub, .subp)]
        | .packed, .coincident, .inLine => [(add, .addpi), (sub, .subpi)]
        | .packed, .never, form =>
          [(fun v1 v2 => some (v2 * v1), match form with
            | .register => .mulp
            | .inLine => .mulpi),
           (fun v1 v2 => if v1 = 0 then none else some (v2.tdiv v1), match form with
            | .register => .divp
            | .inLine => .divpi)]
        | .numeric, .never, _ => []
      ∀ f i, (f, i) ∈ computing →
        (x.read s1 = .error (.abort k) u → trap [i])
          ∧ ∀ v1 s2, x.read s1 = .ok v1 s2 →
            (y.read s2 = .error (.abort k) u → trap [i])
              ∧ ∀ v2 s3, y.read s2 = .ok v2 s3 →
                let value : Option Int := match v1, v2 with
                  | some v1, some v2 =>
                    if s3.forbiddenOverlap rule x d || s3.forbiddenOverlap rule y d then none else f v1 v2
                  | _, _ => none
                match value with
                | some v => storeBytes d.adr (decResult d.type d.len v).1 s3 = .error (.abort k) u → trap [i]
                | none => ∀ free s4, anyBytes (d.type.size d.len) s3 = .ok free s4 →
                  storeBytes d.adr free s4 = .error (.abort k) u → trap [i])
      ∧ ∀ (cls : DecClass) (a b : Desc) (x y : Dec), ddesc a.fst a.snd cls = some x →
        let pick (numeric numericI packed packedI : Instr) : Instr :=
          match cls, form with
          | .numeric, .register => numeric
          | .numeric, .inLine => numericI
          | .packed, .register => packed
          | .packed, .inLine => packedI
        let stores (i : Instr) (y : Dec) (value : Option Int) (s : State) : Prop :=
          match value with
          | some v => storeBytes y.adr (decResult y.type y.len v).1 s = .error (.abort k) u → trap [i]
          | none => ∀ free s4, anyBytes (y.type.size y.len) s = .ok free s4 →
            storeBytes y.adr free s4 = .error (.abort k) u → trap [i]
        (descPair form s = .ok (a, b) s1 → ddesc b.fst b.snd cls = some y →
          (x.read s1 = .error (.abort k) u → trap [pick .cmpn .cmpni .cmpp .cmppi])
            ∧ ∀ v s2, x.read s1 = .ok v s2 → y.read s2 = .error (.abort k) u → trap [pick .cmpn .cmpni .cmpp .cmppi])
          ∧ (∀ sd, shiftOps form s = .ok (a, b, sd) s1 → sd &&& 0o170000 = 0 → ddesc b.fst b.snd cls = some y →
            let i := pick .ashn .ashni .ashp .ashpi
            let count := (sd.extractLsb' 0 8).toInt
            let digit := sd.toNat / 256 % 16
            let m (v : Int) : Nat :=
              if 0 ≤ count then v.natAbs * 10 ^ count.toNat
              else v.natAbs / 10 ^ (-count).toNat
                + (if 10 ≤ v.natAbs / 10 ^ ((-count).toNat - 1) % 10 + digit then 1 else 0)
            (x.read s1 = .error (.abort k) u → trap [i])
              ∧ ∀ v s2, x.read s1 = .ok v s2 →
                let isFree : Bool := decide (9 < digit) || s2.forbiddenOverlap .never x y
                stores i y (v.bind fun v => if isFree then none else some (if v < 0 then -(m v : Int) else m v)) s2)
          ∧ (descPair form s = .ok (a, b) s1 →
            ddesc b.fst b.snd (match cls with
              | .numeric => .packed
              | .packed => .numeric) = some y →
            let i := pick .cvtnp .cvtnpi .cvtpn .cvtpni
            (x.read s1 = .error (.abort k) u → trap [i])
              ∧ ∀ v s2, x.read s1 = .ok v s2 → stores i y (if s2.forbiddenOverlap .never x y then none else v) s2)
          ∧ (∀ q, toLongOps form s = .ok (a, q) s1 →
            let i := pick .cvtnl .cvtnli .cvtpl .cvtpli
            (x.read s1 = .error (.abort k) u → trap [i])
              ∧ (∀ v s2, x.read s1 = .ok (some v) s2 →
                let z := BitVec.ofInt 32 v
                putLong form q { hi := z.extractLsb' 16 16, lo := z.extractLsb' 0 16 } s2 = .error (.abort k) u →
                trap [i])
              ∧ ∀ s2, x.read s1 = .ok none s2 →
                let l : Long := { hi := Config.freeWord s2.free, lo := Config.freeWord (s2.free + 1) }
                putLong form q l { s2 with free := s2.free + 2 } = .error (.abort k) u → trap [i])
          ∧ ∀ l : Long, fromLongOps form s = .ok (a, l) s1 →
            stores (pick .cvtln .cvtlni .cvtlp .cvtlpi) x (some (l.hi.toInt * 65536 + l.lo.toNat)) s1

/-- What an unpredictable commercial instruction can reach outside kernel mode: never PS<15:9> or PS<7:4>, the other stack
pointers or a memory management register, no byte of memory that the mode cannot write through the present mapping, and no
register of the board or a serial-line unit when it can write nothing of the I/O page (spec/48_cis_character.md R581); DMA
masters write memory meanwhile (log 19); and in every mode, a trap it manifests itself as through 244 meets the requirements
of that trap: the option is there, FID is 0, the exception is enabled where it has an enable bit, and FER, FEC and FEA say
so (spec/60_exceptions.md R709); without it the floating-point unit stays. A stack overflow trap takes a kernel stack pushed
below 400 (R715) and waits for the service state; no other trap leaves a request. What lies outside the reach of the effect
is the spec's statement I31 and the model's reading of it (log 34); FEA with the op-code word's address is log 30. -/
def Obligations.UnpredictableBounds : Prop :=
  ∀ (s t : State) (u : Unpredictable) (op : Word) (mode : Mode) (trap : Option UnpredictableTrap),
    (s.mode ≠ .kernel →
      let t := applyUnpredictable u s.mode s
      t.ps &&& 0o177360 = s.ps &&& 0o177360 ∧ (∀ m, m ≠ s.mode → spCell t.regs m = spCell s.regs m)
        ∧ t.mmu = s.mmu)
      ∧ (let t := applyUnpredictable u mode s
         t.fpp = s.fpp ∧ t.cfg = s.cfg ∧ t.run = s.run ∧ t.pend = s.pend ∧ t.odt = s.odt ∧ t.lines = s.lines
           ∧ t.inputs = s.inputs)
      ∧ (s.mode ≠ .kernel →
        let t := applyUnpredictable u s.mode s
        let writable (p : PAddr → Prop) : Prop := ∃ va m, translate s.mode va true s = .ok m s ∧ p m.pa
        (s.mem.wf = true → ∃ n, ∀ a : Nat, ¬ writable (fun pa => isIoPage pa = false ∧ memoryAddr s.cfg pa = a) →
          t.mem.read a = (s.grants n).mem.read a)
          ∧ (¬ writable (fun pa => isIoPage pa = true) → t.board = s.board ∧ t.slu1 = s.slu1 ∧ t.slu2 = s.slu2))
      ∧ (let u := Config.unpredictable s.free
         effectUnpredictable op s = manifestTrap op s.mode u.trap (applyUnpredictable u s.mode { s with free := s.free + 1 }))
      ∧ (manifestTrap op mode trap s = .error (.trap 0o244) t →
        s.cfg.fpPresent = true ∧ s.fpp.fps.getLsbD 14 = false
          ∧ ∃ e : FpError, t.fpp = { s.fpp with fps := s.fpp.fps ||| 0o100000, fec := e.code, fea := op }
            ∧ (e = .conversion → s.fpp.fps.getLsbD 8 = true) ∧ (e = .overflow → s.fpp.fps.getLsbD 9 = true)
            ∧ (e = .underflow → s.fpp.fps.getLsbD 10 = true) ∧ (e = .undefinedVariable → s.fpp.fps.getLsbD 11 = true))
      ∧ (manifestTrap op mode trap s = .ok ⟨⟩ t → t.fpp = s.fpp)
      ∧ (∀ e, e ≠ .trap 0o244 → manifestTrap op mode trap s = .error e t → t.fpp = s.fpp)
      ∧ (∀ sp : Word, manifestTrap op mode (some (.stackOverflow sp)) s = .ok ⟨⟩
        (if mode = .kernel ∧ sp.toNat < 0o400 then { s with pend := { s.pend with stkovf := true } } else s))
      ∧ ((∀ sp, trap ≠ some (.stackOverflow sp)) →
        (∀ e, manifestTrap op mode trap s = .error e t → t.pend = s.pend)
          ∧ (manifestTrap op mode trap s = .ok ⟨⟩ t → t.pend = s.pend))

/-! Devices and the console. -/

/-- The serial-line units and ODT's hold on the processor. Reading RBUF gives the character and its error bits and clears RX
DONE; RCSR and TCSR give their flag and enable; writing RCSR and TCSR reaches the enables, and TX BRK of the second unit, which
reads 0; writing TBUF clears TX RDY and takes the low byte. A character that arrives replaces the one in RBUF and its error
bits, an unread one being an overrun; a character sent sets TX RDY again; an enable and its flag both set request an
interrupt; the clock edge sets EVENT FLG where LKS<6> is set. ODT stores into the PS but for T; its G command loads the PC,
clears PS and FPS, discards the pending requests and initializes the bus (spec/10_state.md R63 to R67, spec/60_exceptions.md
R744, R750, R753, R754, spec/70_reset_and_hazards.md R840, R846). That G discards the requests and what BINIT clears are D11,
D9 (log 15, 13); that it clears FPS is the model's choice between R846 and R80 (log 53); that TBUF written while a character
is pending replaces it is D54, and the number of steps it takes is free (log 39); that TBUF reads 0 is D8 (log 12); that a
break asks for a halt until an input ends it is the model's choice (log 62). -/
def Obligations.ConsoleAndOdt : Prop :=
  (∀ (s g : State) (unit : Unit2) (w : Word) (b : Byte), busGrant s = .ok ⟨⟩ g → s.mmu.sr0.getLsbD 0 = false →
    (match unit with
      | .console => s.cfg.dl1Disable
      | .second => s.cfg.dl2Disable) = false →
    let base : Word := match unit with
      | .console => 0o177560
      | .second => if s.cfg.dl2Alt then 0o176540 else 0o176500
    let x := s.slu unit
    let bit (v : Bool) (mask : Word) : Word := if v then mask else 0
    (∃ t, readWord (base + 2) s = .ok
        (BitVec.ofBool (x.ovr || x.frm || x.par) ++ (BitVec.ofBool x.ovr ++ (BitVec.ofBool x.frm
          ++ (BitVec.ofBool x.par ++ ((0 : BitVec 4) ++ x.rbuf))))) t
      ∧ t = g.withSlu unit (t.slu unit) ∧ (t.slu unit).rxDone = false ∧ (t.slu unit).rxReq = false
      ∧ (t.slu unit).rbufWord = x.rbufWord ∧ (t.slu unit).tcsr = x.tcsr)
      ∧ readWord base s = .ok (bit x.rxDone 0o200 ||| bit x.rxIE 0o100) g
      ∧ readWord (base + 4) s = .ok (bit x.txRdy 0o200 ||| bit x.txIE 0o100) g ∧ readWord (base + 6) s = .ok 0 g
      ∧ writeWord (base + 2) w s = .ok false g
      ∧ (∃ t, writeWord base w s = .ok false t ∧ t = g.withSlu unit (t.slu unit) ∧ (t.slu unit).rxIE = w.getLsbD 6
        ∧ (t.slu unit).rxDone = x.rxDone ∧ (t.slu unit).rbufWord = x.rbufWord ∧ (t.slu unit).tcsr = x.tcsr
        ∧ (t.slu unit).rxReq = (x.rxDone && w.getLsbD 6 && (x.rxReq || !x.rxIE)))
      ∧ (∃ t, writeWord (base + 4) w s = .ok false t ∧ t = g.withSlu unit (t.slu unit) ∧ (t.slu unit).txIE = w.getLsbD 6
        ∧ (t.slu unit).txBrk = (decide (unit = .second) && w.getLsbD 0)
        ∧ (t.slu unit).txRdy = x.txRdy ∧ (t.slu unit).tbuf = x.tbuf ∧ (t.slu unit).rcsr = x.rcsr
        ∧ (t.slu unit).txReq = (x.txRdy && w.getLsbD 6 && (x.txReq || !x.txIE)))
      ∧ (∃ t, writeWord (base + 6) w s = .ok false t ∧ (t.slu unit).txRdy = false ∧ (t.slu unit).tbuf = w.extractLsb' 0 8
        ∧ (t.slu unit).txReq = false ∧ (t.slu unit).sent = x.sent ∧ (t.slu unit).rcsr = x.rcsr
        ∧ t = { g.withSlu unit (t.slu unit) with free := t.free })
      ∧ ∀ a ∈ [base, base + 4, base + 6], writeByte a b s = writeWord a (b ++ b) s ∧ writeByte (a + 1) b s = .ok false g) ∧
  (∀ (s : State) (unit : Unit2) (c : Byte) (frm par ovr : Bool) (rest : List Input),
    s.inputs = .receive unit c frm par ovr :: rest →
    let x := s.slu unit
    let y := (tick s).slu unit
    y.rbuf = c ∧ y.frm = frm ∧ y.par = par ∧ y.ovr = (ovr || x.rxDone) ∧ y.rxDone = true
      ∧ y.rxReq = (x.rxIE && (x.rxReq || !x.rxDone))
      ∧ (tick s).lines = { s.lines with
        breakHalt := s.lines.breakHalt || (decide (unit = .console) && frm && s.cfg.breakHalt) }) ∧
  (∀ s : State, s.run ≠ .poweredDown → s.inputs.headD .quiet = .quiet → ∀ unit : Unit2,
    let x := s.slu unit
    let y := (tick s).slu unit
    (x.txRdy = true → y = x) ∧ (x.txRdy = false → 0 < x.txTimer → y = { x with txTimer := x.txTimer - 1 })
      ∧ (x.txRdy = false → x.txTimer = 0 →
        y.txRdy = true ∧ y.sent = x.sent ++ [x.tbuf] ∧ y.txReq = x.txIE ∧ y.rcsr = x.rcsr ∧ y.rbufWord = x.rbufWord)) ∧
  (∀ (s : State) (rest : List Input),
    (s.inputs = .clockEdge :: rest →
      (tick s).board = { s.board with eventFlg := s.board.eventFlg || s.board.lcie || s.cfg.ltcForce })
      ∧ (s.inputs = .breakEnd :: rest → (tick s).lines = { s.lines with breakHalt := false })
      ∧ ∀ v, s.inputs = .bhalt v :: rest → (tick s).lines = { s.lines with bhalt := v }) ∧
  ∀ (s : State) (w : Word),
    (∃ t, writeOdtLoc .ps w s = .ok (some ⟨⟩) t ∧ t = { s with ps := t.ps } ∧ t.ps.getLsbD 4 = s.ps.getLsbD 4
      ∧ t.ps &&& 0o170757 = w &&& 0o170757)
      ∧ ∃ t, odtGo s = .ok ⟨⟩ t ∧ t.run = .running ∧ t.ps = 0
        ∧ t.fpp = (if s.cfg.fpPresent then { s.fpp with fps := 0 } else s.fpp)
        ∧ t.regs = { s.regs with pc := if s.odt.haveNum then s.odt.num.setWidth 16 else 0 }
        ∧ t.pend = { trap := none, trace := false, stkovf := false, pwrdwn := false, proceed := false }
        ∧ t.mmu = { s.mmu with sr0 := 0, sr3 := 0 } ∧ t.board.lcie = false ∧ t.slu2.rxIE = false ∧ t.mem = s.mem

/-- What console ODT does with what is typed (spec/70_reset_and_hazards.md R833 to R849), the console unit being there and
no DMA meanwhile. It works through its list, one action a step, and reads a character when the list is empty. A digit is
shifted into an 18-bit number; `/` opens the address, the designated register or the PS, or the last location; CR and LF
store what was typed, LF then opens the next location; R or $ begins a designator; G and P end ODT; control-shift-S takes two
bytes of an address and prints the eight bytes there; H prints a prompt. Any other character, and a command where it is not
valid, is answered with a question mark, as is a location that nothing answers. The one action a step is log 45; what state 9
accepts, where H is valid, how a designator is read and how a dump reads are D55, D56, D60 (log 40); LF after an odd address
goes to the odd one above (log 58); the bytes of a dump before a timeout have been sent (log 59). -/
def Obligations.OdtCommands : Prop :=
  ∀ s : State, s.quiet = true → s.cfg.dl1Disable = false →
    let prompt (o : Odt) (todo : List OdtOp) : Odt :=
      { state := if o.last = none then .s1 else .s9, opened := none, last := o.last, num := 0, haveNum := false,
        desig := none, dumpHi := none, todo := todo }
    let asks : List OdtOp := puts [0o77, 0o15, 0o12, 0o100]
    let line : List OdtOp := puts [0o15, 0o12, 0o100]
    ((tick s).run = .halted → step s = .next (odtStep (tick s)))
      ∧ (s.odt.todo = [] → s.slu1.rxDone = false → odtStep s = s)
      ∧ (s.odt.todo = [] → s.slu1.rxDone = true →
        ∃ x, odtStep s = { s with slu1 := x, odt := s.odt.accept s.slu1.rbuf } ∧ x.rxDone = false)
      ∧ (∀ c rest, s.odt.todo = .put c :: rest →
        (s.slu1.txRdy = false → odtStep s = s)
          ∧ (s.slu1.txRdy = true → ∃ x n, odtStep s = { s with slu1 := x, free := n, odt := { s.odt with todo := rest } }
            ∧ x.txRdy = false ∧ x.tbuf = c))
      ∧ (∀ l rest, s.odt.todo = .openLoc l :: rest →
        (∀ v u, readOdtLoc l s = .ok (some v) u → odtStep s = { u with odt := { s.odt with
          state := (match l with
            | .bus _ => .s3
            | .reg _ => .s4
            | .ps => .s4)
          opened := some l, last := some l, num := 0, haveNum := false
          todo := puts (oct6 (v.setWidth 18) ++ [0o40]) } })
          ∧ ∀ u, readOdtLoc l s = .ok none u → odtStep s = { u with odt := prompt s.odt asks })
      ∧ (∀ l v rest, s.odt.todo = .deposit l v :: rest →
        (∀ u, writeOdtLoc l v s = .ok (some ⟨⟩) u → odtStep s = { u with odt := { s.odt with todo := rest } })
          ∧ ∀ u, writeOdtLoc l v s = .ok none u → odtStep s = { u with odt := prompt s.odt asks })
      ∧ (∀ (a : BitVec 18) (v : Word),
        let even := a.toNat / 2 * 2
        let pa : PAddr := BitVec.ofNat 22 (if even < 0o760000 then even else even + 0o17000000)
        readOdtLoc (.bus a) s = attempt (busRead pa) s ∧ writeOdtLoc (.bus a) v s = attempt (busWrite pa .word v) s
          ∧ (plainMemory s pa = true → readOdtLoc (.bus a) s = .ok (some (s.mem.readWord (wordPlace s pa))) s))
      ∧ (∀ rest, s.odt.todo = .proceed :: rest →
        odtStep s = { s with run := .running, pend := { s.pend with proceed := true }, odt := prompt s.odt [] })
      ∧ (∀ rest, s.odt.todo = .go :: rest → odtGo s = .ok ⟨⟩ (odtStep s))
      ∧ (∀ (a : Word) rest, s.odt.todo = .dumpByte a :: rest →
        (∀ w u, busRead (a.setWidth 22) s = .ok w u → odtStep s = { u with odt := { s.odt with
          todo := .put (if a.getLsbD 0 then w.extractLsb' 8 8 else w.extractLsb' 0 8) :: rest } })
          ∧ ∀ e u, busRead (a.setWidth 22) s = .error e u → odtStep s = { u with odt := prompt s.odt asks })
      ∧ (∀ (o : Odt) (c : Byte), o.state = .s10 →
        (o.dumpHi = none → o.accept c = { o with dumpHi := some c, todo := [] })
          ∧ ∀ hi, o.dumpHi = some hi → o.accept c =
            prompt o ((List.range 8).map (fun i => .dumpByte ((hi ++ c : Word) + BitVec.ofNat 16 i)) ++ line))
      ∧ ∀ (o : Odt) (c : Byte), o.state ≠ .s10 →
        let k := c &&& 0o177
        let isOpen : Prop := o.state = .s3 ∨ o.state = .s4 ∨ o.state = .s7 ∨ o.state = .s8
        let atPrompt : Prop := o.state = .s1 ∨ o.state = .s9
        let stores (l : OdtLoc) : List OdtOp := if o.haveNum then [.deposit l (o.num.setWidth 16)] else []
        (∀ d : BitVec 3, k = 0o60 + d.setWidth 8 →
          let t := o.accept c
          t.num = o.num * 8 + d.setWidth 18 ∧ t.haveNum = true ∧ t.opened = o.opened ∧ t.last = o.last ∧ t.todo = [.put c]
            ∧ (atPrompt → t.state = .s5) ∧ (o.state = .s3 → t.state = .s7) ∧ (o.state = .s4 → t.state = .s8)
            ∧ (o.state = .s2 ∨ o.state = .s6 → t.state = .s6 ∧ t.desig = some (.digit d))
            ∧ (o.state = .s5 ∨ o.state = .s7 ∨ o.state = .s8 → t.state = o.state))
          ∧ (k = 0o57 →
            (o.state = .s5 → o.accept c = { o with todo := [.put c, .openLoc (.bus o.num)] })
              ∧ (o.state = .s6 → o.desig = some .ps → o.accept c = { o with todo := [.put c, .openLoc .ps] })
              ∧ (∀ d, o.state = .s6 → o.desig = some (.digit d) → o.accept c = { o with
                todo := [.put c, .openLoc (if o.num &&& 0o777 = 0o77 ∨ o.num &&& 0o777 = 0o477 then .ps else .reg d)] })
              ∧ (∀ l, o.state = .s9 → o.last = some l → o.accept c = { o with todo := [.put c, .openLoc l] })
              ∧ (o.state = .s1 ∨ o.state = .s2 ∨ isOpen ∨ (o.state = .s6 ∧ o.desig = none) ∨ (o.state = .s9 ∧ o.last = none) →
                o.accept c = prompt o (.put c :: asks)))
          ∧ (∀ l, k = 0o15 → isOpen → o.opened = some l → o.accept c = prompt o (.put c :: (stores l ++ line)))
          ∧ (k = 0o12 → isOpen →
            (∀ a, o.opened = some (.bus a) →
              let next := (a &&& 0o600000) ||| ((a + 2) &&& 0o177777)
              o.accept c = prompt o (stores (.bus a) ++ line ++ puts (oct6 next ++ [0o57]) ++ [.openLoc (.bus next)]))
              ∧ (∀ n, o.opened = some (.reg n) → o.accept c = prompt o
                (stores (.reg n) ++ line ++ puts [0o122, 0o60 + (n + 1).setWidth 8, 0o57] ++ [.openLoc (.reg (n + 1))]))
              ∧ (o.opened = some .ps → o.accept c = prompt o (stores .ps ++ line)))
          ∧ (k = 0o122 ∨ k = 0o44 → atPrompt →
            o.accept c = { o with state := .s2, num := 0, haveNum := false, desig := none, todo := [.put c] })
          ∧ (k = 0o123 → o.state = .s2 ∨ o.state = .s6 →
            o.accept c = { o with state := .s6, num := 0, haveNum := false, desig := some .ps, todo := [.put c] })
          ∧ (k = 0o107 → atPrompt ∨ o.state = .s5 → o.accept c = { o with todo := [.put c, .put 0, .put 0, .go] })
          ∧ (k = 0o120 → atPrompt → o.accept c = { o with todo := [.put c, .proceed] })
          ∧ (k = 0o23 → atPrompt → o.accept c = { o with state := .s10, dumpHi := none, todo := [.put c] })
          ∧ (k = 0o110 → atPrompt → o.accept c = { o with todo := [.put c, .put 0o100] })
          ∧ (((k = 0o15 ∨ k = 0o12) ∧ ¬isOpen)
              ∨ ((k = 0o122 ∨ k = 0o44 ∨ k = 0o120 ∨ k = 0o23 ∨ k = 0o110) ∧ ¬atPrompt)
              ∨ (k = 0o123 ∧ o.state ≠ .s2 ∧ o.state ≠ .s6) ∨ (k = 0o107 ∧ ¬atPrompt ∧ o.state ≠ .s5)
              ∨ ((∀ d : BitVec 3, k ≠ 0o60 + d.setWidth 8)
                ∧ k ∉ [0o57, 0o15, 0o12, 0o122, 0o44, 0o123, 0o107, 0o120, 0o23, 0o110]) →
            o.accept c = prompt o ((if k ∈ [0, 2, 0o10, 0o12] then [] else [.put c]) ++ asks))
end

