-- ==== Sys2Proof/Laws/Memory.lean ====
section
/-! SUPPORT. Memory: what a read gives after a write, and that every operation keeps the canonical form. -/

namespace Sys2Proof.Machine

namespace Memory

theorem wfFrom_mono {lo hi : Nat} {m : Memory} (h : lo ≤ hi) (hm : wfFrom hi m = true) : wfFrom lo m = true := by
  cases m with
  | nil => rfl
  | cons c rest =>
    obtain ⟨k, b⟩ := c
    simp only [wfFrom, Bool.and_eq_true, decide_eq_true_eq] at hm ⊢
    exact ⟨⟨h.trans hm.1.1, hm.1.2⟩, hm.2⟩

theorem wfFrom_cons {lo a : Nat} {b : Byte} {rest : Memory} (h : lo ≤ a) (hr : wfFrom (a + 1) rest = true) :
    wfFrom lo (Memory.cons a b rest) = true := by
  unfold Memory.cons
  split
  · exact wfFrom_mono (by omega) hr
  · rename_i hb
    simp only [wfFrom, Bool.and_eq_true, decide_eq_true_eq, bne_iff_ne, ne_eq]
    exact ⟨⟨h, hb⟩, hr⟩

/-- A write keeps the canonical form above any bound not above the address written. -/
theorem wfFrom_write {lo : Nat} {m : Memory} (a : Nat) (b : Byte) (h : lo ≤ a) (hm : wfFrom lo m = true) :
    wfFrom lo (m.write a b) = true := by
  induction m generalizing lo with
  | nil => exact wfFrom_cons h rfl
  | cons c rest ih =>
    obtain ⟨k, v⟩ := c
    have hm' := hm
    simp only [wfFrom, Bool.and_eq_true, decide_eq_true_eq, bne_iff_ne, ne_eq] at hm
    obtain ⟨⟨hk, hv⟩, hrest⟩ := hm
    unfold Memory.write
    split
    · rename_i hlt
      refine wfFrom_cons h ?_
      simp only [wfFrom, Bool.and_eq_true, decide_eq_true_eq, bne_iff_ne, ne_eq]
      exact ⟨⟨hlt, hv⟩, hrest⟩
    · split
      · rename_i heq
        subst heq
        exact wfFrom_cons h hrest
      · simp only [wfFrom, Bool.and_eq_true, decide_eq_true_eq, bne_iff_ne, ne_eq]
        exact ⟨⟨hk, hv⟩, ih (by omega) hrest⟩

/-- A write keeps the canonical form. -/
theorem wf_write {m : Memory} (a : Nat) (b : Byte) (h : m.wf = true) : (m.write a b).wf = true :=
  wfFrom_write a b (Nat.zero_le a) h

/-- A write of a lane keeps the canonical form. -/
theorem wf_writeLane {m : Memory} (a : Nat) (lane : Lane) (v : Word) (h : m.wf = true) :
    (m.writeLane a lane v).wf = true := by
  cases lane <;> simp only [writeLane] <;> first | exact wf_write _ _ (wf_write _ _ h) | exact wf_write _ _ h

/-- A list of writes keeps the canonical form. -/
theorem wf_writeAll {m : Memory} (l : List (Nat × Byte)) (h : m.wf = true) : (m.writeAll l).wf = true := by
  induction l generalizing m with
  | nil => exact h
  | cons c rest ih => exact ih (wf_write _ _ h)

theorem wf_nil : Memory.wf [] = true := rfl

/-- Below the least address of a canonical memory everything is unlisted. -/
theorem read_below {lo a : Nat} {m : Memory} (h : a < lo) (hm : wfFrom lo m = true) : m.read a = unlisted := by
  induction m generalizing lo with
  | nil => rfl
  | cons c rest ih =>
    obtain ⟨k, v⟩ := c
    simp only [wfFrom, Bool.and_eq_true, decide_eq_true_eq] at hm
    rw [Memory.read, if_neg (by omega)]
    exact ih (lo := k + 1) (by omega) hm.2

theorem read_cons_same {a : Nat} {b : Byte} {rest : Memory} (h : wfFrom (a + 1) rest = true) :
    (Memory.cons a b rest).read a = b := by
  unfold Memory.cons
  split
  · rename_i hb
    rw [hb, read_below (Nat.lt_succ_self a) h]
  · rw [Memory.read, if_pos rfl]

theorem read_cons_other {a x : Nat} {b : Byte} {rest : Memory} (h : x ≠ a) : (Memory.cons a b rest).read x = rest.read x := by
  unfold Memory.cons
  split
  · rfl
  · rw [Memory.read, if_neg (Ne.symm h)]

/-- A read gives what was last written to its address. -/
theorem read_write_same {lo : Nat} {m : Memory} (a : Nat) (b : Byte) (hm : wfFrom lo m = true) :
    (m.write a b).read a = b := by
  induction m generalizing lo with
  | nil => exact read_cons_same rfl
  | cons c rest ih =>
    obtain ⟨k, v⟩ := c
    simp only [wfFrom, Bool.and_eq_true, decide_eq_true_eq, bne_iff_ne, ne_eq] at hm
    unfold Memory.write
    split
    · rename_i hlt
      refine read_cons_same ?_
      simp only [wfFrom, Bool.and_eq_true, decide_eq_true_eq, bne_iff_ne, ne_eq]
      exact ⟨⟨hlt, hm.1.2⟩, hm.2⟩
    · split
      · rename_i heq
        subst heq
        exact read_cons_same hm.2
      · rename_i hne
        rw [Memory.read, if_neg (Ne.symm hne)]
        exact ih hm.2

/-- A write leaves every other address. -/
theorem read_write_other {m : Memory} (a x : Nat) (b : Byte) (h : x ≠ a) : (m.write a b).read x = m.read x := by
  induction m with
  | nil => exact read_cons_other h
  | cons c rest ih =>
    obtain ⟨k, v⟩ := c
    unfold Memory.write
    split
    · exact read_cons_other h
    · split
      · rename_i heq
        subst heq
        rw [read_cons_other h, Memory.read, if_neg (Ne.symm h)]
      · rw [Memory.read, Memory.read, ih]

/-- A write of a lane leaves every address outside its word. -/
theorem read_writeLane_other {m : Memory} (a x : Nat) (lane : Lane) (v : Word) (h : x ≠ a) (h' : x ≠ a + 1) :
    (m.writeLane a lane v).read x = m.read x := by
  cases lane <;> simp only [writeLane] <;> simp [read_write_other, h, h']

end Memory

end Sys2Proof.Machine
end

