-- ==== Sys2Proof/Laws/State.lean ====
section
/-! SUPPORT. What each update of the state leaves in each field. -/

namespace Sys2Proof.Machine

@[simp] theorem withReg_cfg (s : State) (r : Reg) (w : Word) : (s.withReg r w).cfg = s.cfg := rfl

@[simp] theorem withReg_ps (s : State) (r : Reg) (w : Word) : (s.withReg r w).ps = s.ps := rfl

@[simp] theorem withReg_mmu (s : State) (r : Reg) (w : Word) : (s.withReg r w).mmu = s.mmu := rfl

@[simp] theorem withReg_fpp (s : State) (r : Reg) (w : Word) : (s.withReg r w).fpp = s.fpp := rfl

@[simp] theorem withReg_board (s : State) (r : Reg) (w : Word) : (s.withReg r w).board = s.board := rfl

@[simp] theorem withReg_slu1 (s : State) (r : Reg) (w : Word) : (s.withReg r w).slu1 = s.slu1 := rfl

@[simp] theorem withReg_slu2 (s : State) (r : Reg) (w : Word) : (s.withReg r w).slu2 = s.slu2 := rfl

@[simp] theorem withReg_mem (s : State) (r : Reg) (w : Word) : (s.withReg r w).mem = s.mem := rfl

@[simp] theorem withReg_run (s : State) (r : Reg) (w : Word) : (s.withReg r w).run = s.run := rfl

@[simp] theorem withReg_pend (s : State) (r : Reg) (w : Word) : (s.withReg r w).pend = s.pend := rfl

@[simp] theorem withReg_odt (s : State) (r : Reg) (w : Word) : (s.withReg r w).odt = s.odt := rfl

@[simp] theorem withReg_lines (s : State) (r : Reg) (w : Word) : (s.withReg r w).lines = s.lines := rfl

@[simp] theorem withReg_inputs (s : State) (r : Reg) (w : Word) : (s.withReg r w).inputs = s.inputs := rfl

@[simp] theorem withReg_bus (s : State) (r : Reg) (w : Word) : (s.withReg r w).bus = s.bus := rfl

@[simp] theorem withReg_free (s : State) (r : Reg) (w : Word) : (s.withReg r w).free = s.free := rfl

@[simp] theorem sampleTrace_cfg (s : State) : (sampleTrace s).cfg = s.cfg := rfl

@[simp] theorem inhibitTrace_cfg (s : State) : (inhibitTrace s).cfg = s.cfg := rfl

@[simp] theorem sampleTrace_ps (s : State) : (sampleTrace s).ps = s.ps := rfl

@[simp] theorem inhibitTrace_ps (s : State) : (inhibitTrace s).ps = s.ps := rfl

@[simp] theorem sampleTrace_mmu (s : State) : (sampleTrace s).mmu = s.mmu := rfl

@[simp] theorem inhibitTrace_mmu (s : State) : (inhibitTrace s).mmu = s.mmu := rfl

@[simp] theorem sampleTrace_fpp (s : State) : (sampleTrace s).fpp = s.fpp := rfl

@[simp] theorem inhibitTrace_fpp (s : State) : (inhibitTrace s).fpp = s.fpp := rfl

@[simp] theorem sampleTrace_board (s : State) : (sampleTrace s).board = s.board := rfl

@[simp] theorem inhibitTrace_board (s : State) : (inhibitTrace s).board = s.board := rfl

@[simp] theorem sampleTrace_slu1 (s : State) : (sampleTrace s).slu1 = s.slu1 := rfl

@[simp] theorem inhibitTrace_slu1 (s : State) : (inhibitTrace s).slu1 = s.slu1 := rfl

@[simp] theorem sampleTrace_slu2 (s : State) : (sampleTrace s).slu2 = s.slu2 := rfl

@[simp] theorem inhibitTrace_slu2 (s : State) : (inhibitTrace s).slu2 = s.slu2 := rfl

@[simp] theorem sampleTrace_mem (s : State) : (sampleTrace s).mem = s.mem := rfl

@[simp] theorem inhibitTrace_mem (s : State) : (inhibitTrace s).mem = s.mem := rfl

@[simp] theorem sampleTrace_run (s : State) : (sampleTrace s).run = s.run := rfl

@[simp] theorem inhibitTrace_run (s : State) : (inhibitTrace s).run = s.run := rfl

@[simp] theorem sampleTrace_odt (s : State) : (sampleTrace s).odt = s.odt := rfl

@[simp] theorem inhibitTrace_odt (s : State) : (inhibitTrace s).odt = s.odt := rfl

@[simp] theorem sampleTrace_lines (s : State) : (sampleTrace s).lines = s.lines := rfl

@[simp] theorem inhibitTrace_lines (s : State) : (inhibitTrace s).lines = s.lines := rfl

@[simp] theorem sampleTrace_inputs (s : State) : (sampleTrace s).inputs = s.inputs := rfl

@[simp] theorem inhibitTrace_inputs (s : State) : (inhibitTrace s).inputs = s.inputs := rfl

@[simp] theorem sampleTrace_bus (s : State) : (sampleTrace s).bus = s.bus := rfl

@[simp] theorem inhibitTrace_bus (s : State) : (inhibitTrace s).bus = s.bus := rfl

@[simp] theorem sampleTrace_free (s : State) : (sampleTrace s).free = s.free := rfl

@[simp] theorem inhibitTrace_free (s : State) : (inhibitTrace s).free = s.free := rfl

@[simp] theorem sampleTrace_regs (s : State) : (sampleTrace s).regs = s.regs := rfl

@[simp] theorem inhibitTrace_regs (s : State) : (inhibitTrace s).regs = s.regs := rfl

@[simp] theorem sampleTrace_trace (s : State) : (sampleTrace s).pend.trace = psTrace s.ps := rfl

@[simp] theorem sampleTrace_trap (s : State) : (sampleTrace s).pend.trap = s.pend.trap := rfl

@[simp] theorem sampleTrace_stkovf (s : State) : (sampleTrace s).pend.stkovf = s.pend.stkovf := rfl

@[simp] theorem sampleTrace_pwrdwn (s : State) : (sampleTrace s).pend.pwrdwn = s.pend.pwrdwn := rfl

@[simp] theorem sampleTrace_proceed (s : State) : (sampleTrace s).pend.proceed = s.pend.proceed := rfl

@[simp] theorem inhibitTrace_trace (s : State) : (inhibitTrace s).pend.trace = false := rfl

@[simp] theorem inhibitTrace_trap (s : State) : (inhibitTrace s).pend.trap = s.pend.trap := rfl

@[simp] theorem inhibitTrace_stkovf (s : State) : (inhibitTrace s).pend.stkovf = s.pend.stkovf := rfl

@[simp] theorem inhibitTrace_pwrdwn (s : State) : (inhibitTrace s).pend.pwrdwn = s.pend.pwrdwn := rfl

@[simp] theorem inhibitTrace_proceed (s : State) : (inhibitTrace s).pend.proceed = s.pend.proceed := rfl

/-! A turn of the DMA masters: it reaches memory and the bus alone. -/

@[simp] theorem granted_cfg (s : State) : s.granted.cfg = s.cfg := rfl

@[simp] theorem granted_regs (s : State) : s.granted.regs = s.regs := rfl

@[simp] theorem granted_ps (s : State) : s.granted.ps = s.ps := rfl

@[simp] theorem granted_mmu (s : State) : s.granted.mmu = s.mmu := rfl

@[simp] theorem granted_fpp (s : State) : s.granted.fpp = s.fpp := rfl

@[simp] theorem granted_board (s : State) : s.granted.board = s.board := rfl

@[simp] theorem granted_slu1 (s : State) : s.granted.slu1 = s.slu1 := rfl

@[simp] theorem granted_slu2 (s : State) : s.granted.slu2 = s.slu2 := rfl

@[simp] theorem granted_run (s : State) : s.granted.run = s.run := rfl

@[simp] theorem granted_pend (s : State) : s.granted.pend = s.pend := rfl

@[simp] theorem granted_odt (s : State) : s.granted.odt = s.odt := rfl

@[simp] theorem granted_lines (s : State) : s.granted.lines = s.lines := rfl

@[simp] theorem granted_inputs (s : State) : s.granted.inputs = s.inputs := rfl

@[simp] theorem granted_free (s : State) : s.granted.free = s.free := rfl

@[simp] theorem granted_mode (s : State) : s.granted.mode = s.mode := rfl

@[simp] theorem withReg_granted (s : State) (r : Reg) (w : Word) : (s.withReg r w).granted = s.granted.withReg r w := rfl

@[simp] theorem withReg_mode (s : State) (r : Reg) (w : Word) : (s.withReg r w).mode = s.mode := rfl

@[simp] theorem withReg_pc (s : State) (w : Word) : (s.withReg .pc w).regs.pc = w := rfl

theorem withSp_other (g : Regs) (m : Mode) (w : Word) :
    (g.withSp m w).r0 = g.r0 ∧ (g.withSp m w).r1 = g.r1 ∧ (g.withSp m w).r2 = g.r2 ∧ (g.withSp m w).r3 = g.r3
      ∧ (g.withSp m w).r4 = g.r4 ∧ (g.withSp m w).r5 = g.r5 ∧ (g.withSp m w).pc = g.pc := by
  cases m <;> simp [Regs.withSp]

@[simp] theorem withSp_pc (g : Regs) (m : Mode) (w : Word) : (g.withSp m w).pc = g.pc := by
  cases m <;> rfl

/-- R6 of a mode that has one reads what was written to it. -/
theorem withSp_spOf (s : State) (m : Mode) (w : Word) (h : m ≠ .illegal) :
    State.spOf { s with regs := s.regs.withSp m w } m = w := by
  cases m <;> first | rfl | exact absurd rfl h

/-- A register other than R6 in mode 10 reads what was written to it. -/
theorem withReg_same (s : State) (r : Reg) (w : Word) (h : r = .sp → s.mode ≠ .illegal) : (s.withReg r w).reg r = w := by
  cases r
  case sp => exact withSp_spOf s s.mode w (h rfl)
  all_goals rfl

/-- Writing one register leaves the others. -/
theorem withReg_other (s : State) (r q : Reg) (w : Word) (h : q ≠ r) : (s.withReg r w).reg q = s.reg q := by
  cases r <;> cases q <;> first
    | exact absurd rfl h
    | rfl
    | (simp only [State.reg, State.withReg, Regs.withReg, State.mode]; generalize psMode s.ps = m; cases m <;> rfl)

end Sys2Proof.Machine
end

