-- ==== Sys2Proof/Laws/Ops.lean ====
section
/-! SUPPORT. The computations of the processor, one lemma per shared operation: how a computation runs, and everything an
operation can do when it answers. -/

namespace Sys2Proof.Machine

variable {α β : Type}

/-! How computations run. -/

@[simp] theorem run_pure (a : α) (s : State) : (pure a : M α) s = .ok a s := rfl

@[simp] theorem run_get (s : State) : (get : M State) s = .ok s s := rfl

@[simp] theorem run_set (t s : State) : (set t : M Unit) s = .ok ⟨⟩ t := rfl

@[simp] theorem run_modify (f : State → State) (s : State) : (modify f : M Unit) s = .ok ⟨⟩ (f s) := rfl

@[simp] theorem run_throw (e : Stop) (s : State) : (throw e : M α) s = .error e s := rfl

theorem run_bind (x : M α) (f : α → M β) (s : State) :
    (x >>= f) s = match x s with
      | .ok a t => f a t
      | .error e t => .error e t := by
  show EStateM.bind x f s = _
  unfold EStateM.bind
  cases x s <;> rfl

@[simp] theorem run_map (x : M α) (f : α → β) (s : State) :
    (f <$> x) s = match x s with
      | .ok a t => .ok (f a) t
      | .error e t => .error e t := by
  show EStateM.map f x s = _
  unfold EStateM.map
  cases x s <;> rfl

/-- A computation that answers was answered by its parts. -/
theorem bind_ok_iff {x : M α} {f : α → M β} {s t : State} {b : β} :
    (x >>= f) s = .ok b t ↔ ∃ a u, x s = .ok a u ∧ f a u = .ok b t := by
  rw [run_bind]
  cases x s <;> simp

/-- A computation that stops was stopped by one of its parts. -/
theorem bind_error_iff {x : M α} {f : α → M β} {s t : State} {e : Stop} :
    (x >>= f) s = .error e t ↔ x s = .error e t ∨ ∃ a u, x s = .ok a u ∧ f a u = .error e t := by
  rw [run_bind]
  cases x s <;> simp

/-- The next step of a computation whose first part answered. -/
theorem bind_of_ok {x : M α} {f : α → M β} {s t : State} {a : α} (h : x s = .ok a t) : (x >>= f) s = f a t := by
  rw [run_bind, h]

/-- A computation whose first part stopped. -/
theorem bind_of_error {x : M α} {f : α → M β} {s t : State} {e : Stop} (h : x s = .error e t) :
    (x >>= f) s = .error e t := by
  rw [run_bind, h]

/-! Relocation. -/

/-- A reference that is not aborted changes nothing, and is relocated as spec/20_memory.md R110, R132, R133 say. -/
theorem translate_ok {mode : Mode} {va : Word} {write : Bool} {s t : State} {m : Mapped}
    (h : translate mode va write s = .ok m t) :
    t = s ∧ ((s.relocating = false ∧ m = { pa := unmapped va, page := none })
      ∨ (s.relocating = true ∧ ∃ p, pageSetOf mode = some p ∧ pageFlags (s.mmu.pdr p (pageOf va)) va write = 0
          ∧ m = { pa := relocate s.mmu p va, page := some (p, pageOf va) })) := by
  simp only [translate, run_bind, run_get] at h
  cases hr : s.relocating with
  | false =>
    simp only [hr, Bool.false_eq_true, if_false, run_pure, EStateM.Result.ok.injEq] at h
    exact ⟨h.2.symm, .inl ⟨rfl, h.1.symm⟩⟩
  | true =>
    simp only [hr, if_true] at h
    cases hp : pageSetOf mode with
    | none => simp [hp, abortMmu, run_bind] at h
    | some p =>
      simp only [hp] at h
      split at h
      · rename_i hf
        simp only [run_pure, EStateM.Result.ok.injEq] at h
        exact ⟨h.2.symm, .inr ⟨rfl, p, rfl, hf, h.1.symm⟩⟩
      · simp [abortMmu, run_bind] at h

/-- A reference that is aborted sets abort flags in SR0 and nothing else (spec/20_memory.md R127). -/
theorem translate_error {mode : Mode} {va : Word} {write : Bool} {s t : State} {e : Stop}
    (h : translate mode va write s = .error e t) :
    e = .abort .mmu ∧ s.relocating = true ∧ ∃ flags,
      (match pageSetOf mode with
        | none => flags = 0o100000
        | some p => flags = pageFlags (s.mmu.pdr p (pageOf va)) va write ∧ flags ≠ 0)
      ∧ t = { s with mmu := { s.mmu with sr0 := sr0AfterAbort s.mmu.sr0 flags mode va } } := by
  simp only [translate, run_bind, run_get] at h
  cases hr : s.relocating with
  | false => simp [hr] at h
  | true =>
    simp only [hr, if_true] at h
    cases hp : pageSetOf mode with
    | none =>
      simp only [hp, abortMmu, run_bind, run_modify, run_throw, EStateM.Result.error.injEq] at h
      exact ⟨h.1.symm, rfl, _, rfl, h.2.symm⟩
    | some p =>
      simp only [hp] at h
      split at h
      · simp at h
      · rename_i hf
        simp only [abortMmu, run_bind, run_modify, run_throw, EStateM.Result.error.injEq] at h
        exact ⟨h.1.symm, rfl, _, ⟨rfl, hf⟩, h.2.symm⟩

/-! Reading. -/

theorem busGrant_run (s : State) :
    busGrant s = if s.bus.left = some 0 then .error (.abort .timeout) s else .ok ⟨⟩ s.granted := rfl

/-- A bus cycle that begins has let the DMA masters have their turn. -/
theorem busGrant_ok {s t : State} (h : busGrant s = .ok ⟨⟩ t) : t = s.granted ∧ s.bus.left ≠ some 0 := by
  rw [busGrant_run] at h
  split at h
  · cases h
  · rename_i hl
    cases h
    exact ⟨rfl, hl⟩

/-- The turns of the DMA masters reach memory and the bus alone, and go by the parameters, memory and the bus alone. -/
theorem grants_eq (n : Nat) (s : State) :
    s.grants n = { s with mem := (s.grants n).mem, bus := (s.grants n).bus } := by
  induction n with
  | zero => rfl
  | succ n ih =>
    show (s.grants n).granted = { s with mem := (s.grants n).granted.mem, bus := (s.grants n).granted.bus }
    generalize s.grants n = g at ih
    generalize g.mem = m, g.bus = b at ih
    subst ih
    rfl

/-- Turns of the DMA masters do not depend on the serial-line units and the counter of free values. -/
theorem grants_device (n : Nat) (s : State) (a b : Slu) (k : Nat) :
    State.grants n { s with slu1 := a, slu2 := b, free := k } = { s.grants n with slu1 := a, slu2 := b, free := k } := by
  induction n with
  | zero => rfl
  | succ n ih =>
    show (State.grants n _).granted = _
    rw [ih]
    rfl

theorem grants_add (m n : Nat) (s : State) : (s.grants m).grants n = s.grants (m + n) := by
  induction n with
  | zero => rfl
  | succ n ih =>
    show ((s.grants m).grants n).granted = _
    rw [ih]
    rfl

/-- On a quiet bus a turn changes nothing. -/
theorem granted_quiet {s : State} (h : s.quiet = true) : s.granted = s := by
  obtain ⟨hd, hl⟩ : s.bus.dma = [] ∧ s.bus.left = none := by
    simpa [State.quiet] using h
  cases s with
  | mk cfg regs ps mmu fpp board slu1 slu2 mem run pend odt lines bus inputs free =>
    cases bus with
    | mk dma seen left =>
      cases hd
      cases hl
      rfl

theorem grants_quiet {s : State} (n : Nat) (h : s.quiet = true) : s.grants n = s := by
  induction n with
  | zero => rfl
  | succ n ih =>
    show (s.grants n).granted = _
    rw [ih, granted_quiet h]

theorem busGrant_quiet {s : State} (h : s.quiet = true) : busGrant s = .ok ⟨⟩ s := by
  have hl : s.bus.left ≠ some 0 := by
    intro hc
    simp [State.quiet, hc] at h
  rw [busGrant_run, if_neg hl, granted_quiet h]

/-- A turn of the DMA masters keeps the canonical form of memory. -/
theorem granted_wf {s : State} (h : s.mem.wf = true) : s.granted.mem.wf = true := by
  suffices key : ∀ (cs : List DmaCycle) (x : Memory × List (Option Word)), x.1.wf = true →
      (cs.foldl (dmaCycle s.cfg) x).1.wf = true from key _ _ h
  intro cs
  induction cs with
  | nil => exact fun _ hx => hx
  | cons c rest ih =>
    intro x hx
    refine ih _ ?_
    cases c <;> simp only [dmaCycle, dmaWrite] <;> first
      | exact hx
      | (split <;> first | exact Memory.wf_writeLane _ _ _ hx | exact hx)

theorem readOnly_refl (s : State) : readOnly s s := ⟨0, rfl⟩

theorem readOnly_granted (s : State) : readOnly s s.granted := ⟨1, rfl⟩

theorem readOnly_trans {s t u : State} (h : readOnly s t) (h' : readOnly t u) : readOnly s u := by
  obtain ⟨n, hn⟩ := h
  obtain ⟨m, hm⟩ := h'
  refine ⟨n + m, ?_⟩
  rw [hn, grants_device, grants_add] at hm
  exact hm

/-- References that write no location leave everything but what DMA masters, a receiver and a free value change. -/
theorem readOnly_fields {s t : State} (h : readOnly s t) :
    t.cfg = s.cfg ∧ t.regs = s.regs ∧ t.ps = s.ps ∧ t.mmu = s.mmu ∧ t.fpp = s.fpp ∧ t.board = s.board ∧ t.run = s.run
      ∧ t.pend = s.pend ∧ t.odt = s.odt ∧ t.lines = s.lines ∧ t.inputs = s.inputs := by
  obtain ⟨n, hn⟩ := h
  rw [hn, grants_eq]
  exact ⟨rfl, rfl, rfl, rfl, rfl, rfl, rfl, rfl, rfl, rfl, rfl⟩

theorem readOnly_free (s : State) (n : Nat) : readOnly s { s with free := n } := ⟨0, rfl⟩

theorem readOnly_withSlu (s : State) (u : Unit2) (x : Slu) : readOnly s (s.withSlu u x) := by
  cases u <;> exact ⟨0, rfl⟩

/-- A read of a register of the I/O page answers, and changes only what `readOnly` allows. -/
theorem readIo_ok (r : IoReg) (s : State) : ∃ w t, readIo r s = .ok w t ∧ readOnly s t := by
  cases r <;> simp only [readIo, run_bind, run_get, run_pure, nextFree] <;>
    exact ⟨_, _, rfl, by first | exact ⟨0, rfl⟩ | exact readOnly_withSlu _ _ _⟩

/-- The cycle of a read that answers changes only what `readOnly` allows. -/
theorem readCycle_ok {pa : PAddr} {s t : State} {w : Word} (h : readCycle pa s = .ok w t) : readOnly s t := by
  simp only [readCycle, run_bind, run_get] at h
  cases hio : isIoPage pa with
  | true =>
    simp only [hio, if_true] at h
    cases hd : ioDecode s.cfg pa with
    | none => simp [hd] at h
    | some r =>
      simp only [hd] at h
      obtain ⟨w', t', hr, hro⟩ := readIo_ok r s
      rw [hr] at h
      cases h
      exact hro
  | false =>
    simp only [hio, Bool.false_eq_true, if_false] at h
    split at h
    · split at h
      · simp at h
      · cases h
        exact readOnly_refl _
    · simp at h

/-- A read that answers: the DMA masters have their turn, then the cycle is made. -/
theorem busRead_ok {pa : PAddr} {s t : State} {w : Word} (h : busRead pa s = .ok w t) :
    readCycle pa s.granted = .ok w t ∧ readOnly s t := by
  obtain ⟨⟨⟩, g, hg, hr⟩ := bind_ok_iff.mp h
  rw [(busGrant_ok hg).1] at hr
  exact ⟨hr, readOnly_trans (readOnly_granted s) (readCycle_ok hr)⟩

/-- The cycle of a read that is not answered changes nothing (spec/20_memory.md R140, R141). -/
theorem readCycle_error {pa : PAddr} {s t : State} {e : Stop} (h : readCycle pa s = .error e t) :
    t = s ∧ (e = .abort .timeout ∨ e = .abort .parity) := by
  simp only [readCycle, run_bind, run_get] at h
  cases hio : isIoPage pa with
  | true =>
    simp only [hio, if_true] at h
    cases hd : ioDecode s.cfg pa with
    | none =>
      simp only [hd] at h
      cases h
      exact ⟨rfl, .inl rfl⟩
    | some r =>
      simp only [hd] at h
      obtain ⟨w', t', hr, _⟩ := readIo_ok r s
      rw [hr] at h
      cases h
  | false =>
    simp only [hio, Bool.false_eq_true, if_false] at h
    split at h
    · split at h
      · cases h
        exact ⟨rfl, .inr rfl⟩
      · cases h
    · cases h
      exact ⟨rfl, .inl rfl⟩

/-- A word reference that answers changes only what `readOnly` allows. -/
theorem readWordIn_ok {mode : Mode} {va : Word} {s t : State} {w : Word} (h : readWordIn mode va s = .ok w t) :
    readOnly s t := by
  obtain ⟨m, u, hm, hb⟩ := bind_ok_iff.mp h
  rw [(translate_ok hm).1] at hb
  exact (busRead_ok hb).2

theorem readWord_ok {va : Word} {s t : State} {w : Word} (h : readWord va s = .ok w t) : readOnly s t := by
  obtain ⟨u, v, hu, hr⟩ := bind_ok_iff.mp h
  cases hu
  exact readWordIn_ok hr

theorem readByteIn_ok {mode : Mode} {va : Word} {s t : State} {b : Byte} (h : readByteIn mode va s = .ok b t) :
    readOnly s t := by
  obtain ⟨m, u, hm, hb⟩ := bind_ok_iff.mp h
  obtain ⟨w, v, hw, hv⟩ := bind_ok_iff.mp hb
  rw [(translate_ok hm).1] at hw
  cases hv
  exact (busRead_ok hw).2

theorem readByte_ok {va : Word} {s t : State} {b : Byte} (h : readByte va s = .ok b t) : readOnly s t := by
  obtain ⟨u, v, hu, hr⟩ := bind_ok_iff.mp h
  cases hu
  exact readByteIn_ok hr

/-- Reading R6 of a mode gives its cell, and takes a free value in mode 10. -/
theorem readSpOf_ok (m : Mode) (s : State) :
    readSpOf m s = .ok (s.spOf m) (match m with
      | .illegal => { s with free := s.free + 1 }
      | _ => s) := by
  cases m <;> rfl

/-- Reading a register gives its value, and changes at most the counter of free values. -/
theorem readReg_ok (r : Reg) (s : State) : ∃ n, readReg r s = .ok (s.reg r) { s with free := n } := by
  cases r
  case sp =>
    simp only [readReg, run_bind, run_get, readSpOf_ok, State.reg]
    cases s.mode <;> exact ⟨_, rfl⟩
  all_goals exact ⟨s.free, rfl⟩

@[simp] theorem writeReg_run (r : Reg) (w : Word) (s : State) : writeReg r w s = .ok ⟨⟩ (s.withReg r w) := rfl

@[simp] theorem writeSpOf_run (m : Mode) (w : Word) (s : State) :
    writeSpOf m w s = .ok ⟨⟩ { s with regs := s.regs.withSp m w } := rfl

/-- A reference to the next word is its check, then the step of the PC (spec/00_scope.md R14). -/
theorem nextWord_run (write : Bool) (s : State) :
    nextWord write s = match translate s.mode s.regs.pc write s with
      | .ok m _ => .ok m { s with regs := { s.regs with pc := s.regs.pc + 2 } }
      | .error e t => .error e t := by
  simp only [nextWord, run_bind, run_get]
  cases h : translate s.mode s.regs.pc write s with
  | ok m u => obtain rfl := (translate_ok h).1; rfl
  | error e u => rfl

/-- A fetch is the check of its reference, then the step of the PC, then the bus cycle. -/
theorem fetchWord_run (s : State) :
    fetchWord s = match translate s.mode s.regs.pc false s with
      | .ok m _ => busRead m.pa { s with regs := { s.regs with pc := s.regs.pc + 2 } }
      | .error e t => .error e t := by
  simp only [fetchWord, run_bind, nextWord_run]
  cases translate s.mode s.regs.pc false s <;> rfl

/-- A store of the next word is the check of its reference, then the step of the PC, then the bus cycle. -/
theorem storeNext_run (v : Word) (s : State) :
    storeNext v s = match translate s.mode s.regs.pc true s with
      | .ok m _ => storeMapped m .word v { s with regs := { s.regs with pc := s.regs.pc + 2 } }
      | .error e t => .error e t := by
  simp only [storeNext, run_bind, nextWord_run]
  cases translate s.mode s.regs.pc true s <;> rfl

/-- A fetch that answers advances the PC by 2 and reads (spec/10_state.md R28). -/
theorem fetchWord_ok {s t : State} {w : Word} (h : fetchWord s = .ok w t) :
    readOnly { s with regs := { s.regs with pc := s.regs.pc + 2 } } t := by
  rw [fetchWord_run] at h
  cases hm : translate s.mode s.regs.pc false s with
  | ok m u => rw [hm] at h; exact (busRead_ok h).2
  | error e u => rw [hm] at h; cases h

/-! Stacks and exceptions. -/

@[simp] theorem noteStackLimit_run (a : Word) (s : State) :
    noteStackLimit a s = .ok ⟨⟩
      (if s.mode = .kernel ∧ a.toNat < 0o400 then { s with pend := { s.pend with stkovf := true } } else s) := rfl

@[simp] theorem setCodes_run (wrotePs : Bool) (k : Codes) (s : State) :
    setCodes wrotePs k s = .ok ⟨⟩ (settled wrotePs k s) := by
  cases wrotePs <;> rfl

@[simp] theorem setCodesOnly_run (k : Codes) (s : State) :
    setCodesOnly k s = .ok ⟨⟩ { s with ps := psWithCodes s.ps k } := rfl

@[simp] theorem codesNow_run (s : State) : codesNow s = .ok (psCodes s.ps) s := rfl

@[simp] theorem raiseTrap_run (v : Word) (s : State) : raiseTrap v s = .error (.trap v) s := rfl

/-- A trap sequence that ran to its end leaves none due; one that did not leaves the next one due (R721, R722). -/
theorem performTrap_cases (req : TrapRequest) (s : State) :
    (∃ t, trapSequence req s = .ok ⟨⟩ t ∧ performTrap req s = { t with pend := { t.pend with trap := none } })
      ∨ ∃ e t, trapSequence req s = .error e t
          ∧ performTrap req s = { t with pend := { t.pend with trap := some e.request } } := by
  unfold performTrap
  cases h : trapSequence req s with
  | ok a t => exact .inl ⟨t, rfl, rfl⟩
  | error e t => exact .inr ⟨e, t, rfl, rfl⟩

/-- BINIT reaches the MMU, the board, both serial-line units and the requests of bus devices, and nothing else
(spec/70_reset_and_hazards.md R812). -/
theorem busInit_frame (s : State) :
    busInit s = { s with
      mmu := (busInit s).mmu, board := (busInit s).board, slu1 := (busInit s).slu1, slu2 := (busInit s).slu2,
      lines := (busInit s).lines } := rfl

/-- The transmitters moving on change the two serial-line units alone. -/
theorem transmitted_frame (s : State) :
    s.transmitted = { s with slu1 := s.transmitted.slu1, slu2 := s.transmitted.slu2 } := by
  unfold State.transmitted; split <;> rfl

/-- Without dc power no character moves. -/
@[simp] theorem transmitted_poweredDown (s : State) (h : s.run = .poweredDown) : s.transmitted = s := if_pos h

end Sys2Proof.Machine
end

