-- ==== Sys2Proof/Laws/PerInstr.lean ====
section
/-! SUPPORT. The family `InTable`: the op-code word of every well-formed instruction lies in a row of
spec/opcode_table.json that carries its mnemonic. The rows are copied from the table, as (match, mask). -/

namespace Sys2Proof.Laws.InTable

-- The lemmas are elaborated one after the other: nearly two hundred at once take more threads than they gain.
set_option Elab.async false

/-- The rows of the table for an instruction. -/
def rows : Instr → List (Nat × Nat)
  | .halt => [(0o000000, 0o177777)]
  | .wait => [(0o000001, 0o177777)]
  | .rti => [(0o000002, 0o177777)]
  | .bpt => [(0o000003, 0o177777)]
  | .iot => [(0o000004, 0o177777)]
  | .reset => [(0o000005, 0o177777)]
  | .rtt => [(0o000006, 0o177777)]
  | .mfpt => [(0o000007, 0o177777)]
  | .jmp _ => [(0o000100, 0o177700)]
  | .rts _ => [(0o000200, 0o177770)]
  | .nop => [(0o000240, 0o177777)]
  | .clc => [(0o000241, 0o177777)]
  | .clv => [(0o000242, 0o177777)]
  | .clz => [(0o000244, 0o177777)]
  | .cln => [(0o000250, 0o177777)]
  | .ccc => [(0o000257, 0o177777)]
  | .clearCodes _ => [(0o000240, 0o177760)]
  | .sec => [(0o000261, 0o177777)]
  | .sev => [(0o000262, 0o177777)]
  | .sez => [(0o000264, 0o177777)]
  | .sen => [(0o000270, 0o177777)]
  | .scc => [(0o000277, 0o177777)]
  | .setCodes _ => [(0o000260, 0o177760)]
  | .swab _ => [(0o000300, 0o177700)]
  | .br _ => [(0o000400, 0o177400)]
  | .bne _ => [(0o001000, 0o177400)]
  | .beq _ => [(0o001400, 0o177400)]
  | .bge _ => [(0o002000, 0o177400)]
  | .blt _ => [(0o002400, 0o177400)]
  | .bgt _ => [(0o003000, 0o177400)]
  | .ble _ => [(0o003400, 0o177400)]
  | .bpl _ => [(0o100000, 0o177400)]
  | .bmi _ => [(0o100400, 0o177400)]
  | .bhi _ => [(0o101000, 0o177400)]
  | .blos _ => [(0o101400, 0o177400)]
  | .bvc _ => [(0o102000, 0o177400)]
  | .bvs _ => [(0o102400, 0o177400)]
  | .bcc _ => [(0o103000, 0o177400)]
  | .bcs _ => [(0o103400, 0o177400)]
  | .jsr _ _ => [(0o004000, 0o177000)]
  | .clr _ => [(0o005000, 0o177700)]
  | .clrb _ => [(0o105000, 0o177700)]
  | .com _ => [(0o005100, 0o177700)]
  | .comb _ => [(0o105100, 0o177700)]
  | .inc _ => [(0o005200, 0o177700)]
  | .incb _ => [(0o105200, 0o177700)]
  | .dec _ => [(0o005300, 0o177700)]
  | .decb _ => [(0o105300, 0o177700)]
  | .neg _ => [(0o005400, 0o177700)]
  | .negb _ => [(0o105400, 0o177700)]
  | .adc _ => [(0o005500, 0o177700)]
  | .adcb _ => [(0o105500, 0o177700)]
  | .sbc _ => [(0o005600, 0o177700)]
  | .sbcb _ => [(0o105600, 0o177700)]
  | .tst _ => [(0o005700, 0o177700)]
  | .tstb _ => [(0o105700, 0o177700)]
  | .ror _ => [(0o006000, 0o177700)]
  | .rorb _ => [(0o106000, 0o177700)]
  | .rol _ => [(0o006100, 0o177700)]
  | .rolb _ => [(0o106100, 0o177700)]
  | .asr _ => [(0o006200, 0o177700)]
  | .asrb _ => [(0o106200, 0o177700)]
  | .asl _ => [(0o006300, 0o177700)]
  | .aslb _ => [(0o106300, 0o177700)]
  | .mark _ => [(0o006400, 0o177700)]
  | .mfpi _ => [(0o006500, 0o177700)]
  | .mtpi _ => [(0o006600, 0o177700)]
  | .sxt _ => [(0o006700, 0o177700)]
  | .mov _ _ => [(0o010000, 0o170000)]
  | .movb _ _ => [(0o110000, 0o170000)]
  | .cmp _ _ => [(0o020000, 0o170000)]
  | .cmpb _ _ => [(0o120000, 0o170000)]
  | .bit _ _ => [(0o030000, 0o170000)]
  | .bitb _ _ => [(0o130000, 0o170000)]
  | .bic _ _ => [(0o040000, 0o170000)]
  | .bicb _ _ => [(0o140000, 0o170000)]
  | .bis _ _ => [(0o050000, 0o170000)]
  | .bisb _ _ => [(0o150000, 0o170000)]
  | .add _ _ => [(0o060000, 0o170000)]
  | .sub _ _ => [(0o160000, 0o170000)]
  | .mul _ _ => [(0o070000, 0o177000)]
  | .div _ _ => [(0o071000, 0o177000)]
  | .ash _ _ => [(0o072000, 0o177000)]
  | .ashc _ _ => [(0o073000, 0o177000)]
  | .xor _ _ => [(0o074000, 0o177000)]
  | .sob _ _ => [(0o077000, 0o177000)]
  | .emt _ => [(0o104000, 0o177400)]
  | .trap _ => [(0o104400, 0o177400)]
  | .mtps _ => [(0o106400, 0o177700)]
  | .mfpd _ => [(0o106500, 0o177700)]
  | .mtpd _ => [(0o106600, 0o177700)]
  | .mfps _ => [(0o106700, 0o177700)]
  | .cfcc => [(0o170000, 0o177777)]
  | .setf => [(0o170001, 0o177777)]
  | .seti => [(0o170002, 0o177777)]
  | .setd => [(0o170011, 0o177777)]
  | .setl => [(0o170012, 0o177777)]
  | .ldfps _ => [(0o170100, 0o177700)]
  | .stfps _ => [(0o170200, 0o177700)]
  | .stst _ => [(0o170300, 0o177700)]
  | .clrf _ => [(0o170400, 0o177700)]
  | .tstf _ => [(0o170500, 0o177700)]
  | .absf _ => [(0o170600, 0o177700)]
  | .negf _ => [(0o170700, 0o177700)]
  | .mulf _ _ => [(0o171000, 0o177400)]
  | .modf _ _ => [(0o171400, 0o177400)]
  | .addf _ _ => [(0o172000, 0o177400)]
  | .ldf _ _ => [(0o172400, 0o177400)]
  | .subf _ _ => [(0o173000, 0o177400)]
  | .cmpf _ _ => [(0o173400, 0o177400)]
  | .stf _ _ => [(0o174000, 0o177400)]
  | .divf _ _ => [(0o174400, 0o177400)]
  | .stexp _ _ => [(0o175000, 0o177400)]
  | .stcfi _ _ => [(0o175400, 0o177400)]
  | .stcfd _ _ => [(0o176000, 0o177400)]
  | .ldexp _ _ => [(0o176400, 0o177400)]
  | .ldcif _ _ => [(0o177000, 0o177400)]
  | .ldcdf _ _ => [(0o177400, 0o177400)]
  | .l2d _ => [(0o076020, 0o177770)]
  | .l3d _ => [(0o076060, 0o177770)]
  | .movc => [(0o076030, 0o177777)]
  | .movci => [(0o076130, 0o177777)]
  | .movrc => [(0o076031, 0o177777)]
  | .movrci => [(0o076131, 0o177777)]
  | .movtc => [(0o076032, 0o177777)]
  | .movtci => [(0o076132, 0o177777)]
  | .locc => [(0o076040, 0o177777)]
  | .locci => [(0o076140, 0o177777)]
  | .skpc => [(0o076041, 0o177777)]
  | .skpci => [(0o076141, 0o177777)]
  | .scanc => [(0o076042, 0o177777)]
  | .scanci => [(0o076142, 0o177777)]
  | .spanc => [(0o076043, 0o177777)]
  | .spanci => [(0o076143, 0o177777)]
  | .cmpc => [(0o076044, 0o177777)]
  | .cmpci => [(0o076144, 0o177777)]
  | .matc => [(0o076045, 0o177777)]
  | .matci => [(0o076145, 0o177777)]
  | .addn => [(0o076050, 0o177777)]
  | .addni => [(0o076150, 0o177777)]
  | .subn => [(0o076051, 0o177777)]
  | .subni => [(0o076151, 0o177777)]
  | .cmpn => [(0o076052, 0o177777)]
  | .cmpni => [(0o076152, 0o177777)]
  | .cvtnl => [(0o076053, 0o177777)]
  | .cvtnli => [(0o076153, 0o177777)]
  | .cvtpn => [(0o076054, 0o177777)]
  | .cvtpni => [(0o076154, 0o177777)]
  | .cvtnp => [(0o076055, 0o177777)]
  | .cvtnpi => [(0o076155, 0o177777)]
  | .ashn => [(0o076056, 0o177777)]
  | .ashni => [(0o076156, 0o177777)]
  | .cvtln => [(0o076057, 0o177777)]
  | .cvtlni => [(0o076157, 0o177777)]
  | .addp => [(0o076070, 0o177777)]
  | .addpi => [(0o076170, 0o177777)]
  | .subp => [(0o076071, 0o177777)]
  | .subpi => [(0o076171, 0o177777)]
  | .cmpp => [(0o076072, 0o177777)]
  | .cmppi => [(0o076172, 0o177777)]
  | .cvtpl => [(0o076073, 0o177777)]
  | .cvtpli => [(0o076173, 0o177777)]
  | .mulp => [(0o076074, 0o177777)]
  | .mulpi => [(0o076174, 0o177777)]
  | .divp => [(0o076075, 0o177777)]
  | .divpi => [(0o076175, 0o177777)]
  | .ashp => [(0o076076, 0o177777)]
  | .ashpi => [(0o076176, 0o177777)]
  | .cvtlp => [(0o076077, 0o177777)]
  | .cvtlpi => [(0o076177, 0o177777)]
  | .reserved _ => reservedRows
  | .fpIllegal _ => fpIllegalRows

/-- The word lies in one of the rows of its instruction. -/
def Statement (i : Instr) : Prop := i.wellFormed = true → inRows (rows i) (encodeWord i) = true

/-- Under a mask of its high `n` bits, a word that starts with `op` is `op`. -/
theorem and_high {n m : Nat} (op : BitVec n) (b : BitVec m) :
    (op ++ b).toNat &&& ((2 ^ n - 1) <<< m) = op.toNat <<< m := by
  apply Nat.eq_of_testBit_eq
  intro i
  rw [BitVec.toNat_append]
  simp only [Nat.testBit_and, Nat.testBit_or, Nat.testBit_shiftLeft, Nat.testBit_two_pow_sub_one]
  by_cases h : m ≤ i
  · have hb : b.toNat.testBit i = false := Nat.testBit_lt_two_pow (b.isLt.trans_le (Nat.pow_le_pow_right (by decide) h))
    by_cases ho : i - m < n
    · simp [h, hb, ho]
    · have : op.toNat.testBit (i - m) = false :=
        Nat.testBit_lt_two_pow (op.isLt.trans_le (Nat.pow_le_pow_right (by decide) (by omega)))
      simp [h, hb, this]
  · simp [h]

/-- A word lies in the row of its leading bits. -/
theorem inRow {n m : Nat} (op : BitVec n) (b : BitVec m) (h : n + m = 16 := by rfl) :
    inRows [(op.toNat <<< m, (2 ^ n - 1) <<< m)] ((op ++ b).cast h) = true := by
  simp only [inRows, List.any_cons, List.any_nil, Bool.or_false, BitVec.toNat_cast, and_high, beq_self_eq_true]

theorem halt : Statement (.halt) := fun _ => rfl
theorem wait : Statement (.wait) := fun _ => rfl
theorem rti : Statement (.rti) := fun _ => rfl
theorem bpt : Statement (.bpt) := fun _ => rfl
theorem iot : Statement (.iot) := fun _ => rfl
theorem reset : Statement (.reset) := fun _ => rfl
theorem rtt : Statement (.rtt) := fun _ => rfl
theorem mfpt : Statement (.mfpt) := fun _ => rfl
theorem jmp (dst : Operand) : Statement (.jmp dst) := fun _ => inRow (n := 10) (m := 6) 0o1 dst.bits
theorem rts (r : Reg) : Statement (.rts r) := fun _ => inRow (n := 13) (m := 3) 0o00020 r.bits
theorem nop : Statement (.nop) := fun _ => rfl
theorem clc : Statement (.clc) := fun _ => rfl
theorem clv : Statement (.clv) := fun _ => rfl
theorem clz : Statement (.clz) := fun _ => rfl
theorem cln : Statement (.cln) := fun _ => rfl
theorem ccc : Statement (.ccc) := fun _ => rfl
theorem clearCodes (mask : BitVec 4) : Statement (.clearCodes mask) := fun _ => inRow (n := 12) (m := 4) 0o12 mask
theorem sec : Statement (.sec) := fun _ => rfl
theorem sev : Statement (.sev) := fun _ => rfl
theorem sez : Statement (.sez) := fun _ => rfl
theorem sen : Statement (.sen) := fun _ => rfl
theorem scc : Statement (.scc) := fun _ => rfl
theorem setCodes (mask : BitVec 4) : Statement (.setCodes mask) := fun _ => inRow (n := 12) (m := 4) 0o13 mask
theorem swab (dst : Operand) : Statement (.swab dst) := fun _ => inRow (n := 10) (m := 6) 0o3 dst.bits
theorem br (offset : Byte) : Statement (.br offset) := fun _ => inRow (n := 8) (m := 8) 0o1 offset
theorem bne (offset : Byte) : Statement (.bne offset) := fun _ => inRow (n := 8) (m := 8) 0o2 offset
theorem beq (offset : Byte) : Statement (.beq offset) := fun _ => inRow (n := 8) (m := 8) 0o3 offset
theorem bge (offset : Byte) : Statement (.bge offset) := fun _ => inRow (n := 8) (m := 8) 0o4 offset
theorem blt (offset : Byte) : Statement (.blt offset) := fun _ => inRow (n := 8) (m := 8) 0o5 offset
theorem bgt (offset : Byte) : Statement (.bgt offset) := fun _ => inRow (n := 8) (m := 8) 0o6 offset
theorem ble (offset : Byte) : Statement (.ble offset) := fun _ => inRow (n := 8) (m := 8) 0o7 offset
theorem bpl (offset : Byte) : Statement (.bpl offset) := fun _ => inRow (n := 8) (m := 8) 0o200 offset
theorem bmi (offset : Byte) : Statement (.bmi offset) := fun _ => inRow (n := 8) (m := 8) 0o201 offset
theorem bhi (offset : Byte) : Statement (.bhi offset) := fun _ => inRow (n := 8) (m := 8) 0o202 offset
theorem blos (offset : Byte) : Statement (.blos offset) := fun _ => inRow (n := 8) (m := 8) 0o203 offset
theorem bvc (offset : Byte) : Statement (.bvc offset) := fun _ => inRow (n := 8) (m := 8) 0o204 offset
theorem bvs (offset : Byte) : Statement (.bvs offset) := fun _ => inRow (n := 8) (m := 8) 0o205 offset
theorem bcc (offset : Byte) : Statement (.bcc offset) := fun _ => inRow (n := 8) (m := 8) 0o206 offset
theorem bcs (offset : Byte) : Statement (.bcs offset) := fun _ => inRow (n := 8) (m := 8) 0o207 offset
theorem jsr (r : Reg) (dst : Operand) : Statement (.jsr r dst) :=
  fun _ => inRow (n := 7) (m := 9) 0o4 (r.bits ++ dst.bits)
theorem clr (dst : Operand) : Statement (.clr dst) := fun _ => inRow (n := 10) (m := 6) 0o50 dst.bits
theorem clrb (dst : Operand) : Statement (.clrb dst) := fun _ => inRow (n := 10) (m := 6) 0o1050 dst.bits
theorem com (dst : Operand) : Statement (.com dst) := fun _ => inRow (n := 10) (m := 6) 0o51 dst.bits
theorem comb (dst : Operand) : Statement (.comb dst) := fun _ => inRow (n := 10) (m := 6) 0o1051 dst.bits
theorem inc (dst : Operand) : Statement (.inc dst) := fun _ => inRow (n := 10) (m := 6) 0o52 dst.bits
theorem incb (dst : Operand) : Statement (.incb dst) := fun _ => inRow (n := 10) (m := 6) 0o1052 dst.bits
theorem dec (dst : Operand) : Statement (.dec dst) := fun _ => inRow (n := 10) (m := 6) 0o53 dst.bits
theorem decb (dst : Operand) : Statement (.decb dst) := fun _ => inRow (n := 10) (m := 6) 0o1053 dst.bits
theorem neg (dst : Operand) : Statement (.neg dst) := fun _ => inRow (n := 10) (m := 6) 0o54 dst.bits
theorem negb (dst : Operand) : Statement (.negb dst) := fun _ => inRow (n := 10) (m := 6) 0o1054 dst.bits
theorem adc (dst : Operand) : Statement (.adc dst) := fun _ => inRow (n := 10) (m := 6) 0o55 dst.bits
theorem adcb (dst : Operand) : Statement (.adcb dst) := fun _ => inRow (n := 10) (m := 6) 0o1055 dst.bits
theorem sbc (dst : Operand) : Statement (.sbc dst) := fun _ => inRow (n := 10) (m := 6) 0o56 dst.bits
theorem sbcb (dst : Operand) : Statement (.sbcb dst) := fun _ => inRow (n := 10) (m := 6) 0o1056 dst.bits
theorem tst (dst : Operand) : Statement (.tst dst) := fun _ => inRow (n := 10) (m := 6) 0o57 dst.bits
theorem tstb (dst : Operand) : Statement (.tstb dst) := fun _ => inRow (n := 10) (m := 6) 0o1057 dst.bits
theorem ror (dst : Operand) : Statement (.ror dst) := fun _ => inRow (n := 10) (m := 6) 0o60 dst.bits
theorem rorb (dst : Operand) : Statement (.rorb dst) := fun _ => inRow (n := 10) (m := 6) 0o1060 dst.bits
theorem rol (dst : Operand) : Statement (.rol dst) := fun _ => inRow (n := 10) (m := 6) 0o61 dst.bits
theorem rolb (dst : Operand) : Statement (.rolb dst) := fun _ => inRow (n := 10) (m := 6) 0o1061 dst.bits
theorem asr (dst : Operand) : Statement (.asr dst) := fun _ => inRow (n := 10) (m := 6) 0o62 dst.bits
theorem asrb (dst : Operand) : Statement (.asrb dst) := fun _ => inRow (n := 10) (m := 6) 0o1062 dst.bits
theorem asl (dst : Operand) : Statement (.asl dst) := fun _ => inRow (n := 10) (m := 6) 0o63 dst.bits
theorem aslb (dst : Operand) : Statement (.aslb dst) := fun _ => inRow (n := 10) (m := 6) 0o1063 dst.bits
theorem mark (nn : BitVec 6) : Statement (.mark nn) := fun _ => inRow (n := 10) (m := 6) 0o64 nn
theorem mfpi (src : Operand) : Statement (.mfpi src) := fun _ => inRow (n := 10) (m := 6) 0o65 src.bits
theorem mtpi (dst : Operand) : Statement (.mtpi dst) := fun _ => inRow (n := 10) (m := 6) 0o66 dst.bits
theorem sxt (dst : Operand) : Statement (.sxt dst) := fun _ => inRow (n := 10) (m := 6) 0o67 dst.bits
theorem mov (src : Operand) (dst : Operand) : Statement (.mov src dst) :=
  fun _ => inRow (n := 4) (m := 12) 0o1 (src.bits ++ dst.bits)
theorem movb (src : Operand) (dst : Operand) : Statement (.movb src dst) :=
  fun _ => inRow (n := 4) (m := 12) 0o11 (src.bits ++ dst.bits)
theorem cmp (src : Operand) (dst : Operand) : Statement (.cmp src dst) :=
  fun _ => inRow (n := 4) (m := 12) 0o2 (src.bits ++ dst.bits)
theorem cmpb (src : Operand) (dst : Operand) : Statement (.cmpb src dst) :=
  fun _ => inRow (n := 4) (m := 12) 0o12 (src.bits ++ dst.bits)
theorem bit (src : Operand) (dst : Operand) : Statement (.bit src dst) :=
  fun _ => inRow (n := 4) (m := 12) 0o3 (src.bits ++ dst.bits)
theorem bitb (src : Operand) (dst : Operand) : Statement (.bitb src dst) :=
  fun _ => inRow (n := 4) (m := 12) 0o13 (src.bits ++ dst.bits)
theorem bic (src : Operand) (dst : Operand) : Statement (.bic src dst) :=
  fun _ => inRow (n := 4) (m := 12) 0o4 (src.bits ++ dst.bits)
theorem bicb (src : Operand) (dst : Operand) : Statement (.bicb src dst) :=
  fun _ => inRow (n := 4) (m := 12) 0o14 (src.bits ++ dst.bits)
theorem bis (src : Operand) (dst : Operand) : Statement (.bis src dst) :=
  fun _ => inRow (n := 4) (m := 12) 0o5 (src.bits ++ dst.bits)
theorem bisb (src : Operand) (dst : Operand) : Statement (.bisb src dst) :=
  fun _ => inRow (n := 4) (m := 12) 0o15 (src.bits ++ dst.bits)
theorem add (src : Operand) (dst : Operand) : Statement (.add src dst) :=
  fun _ => inRow (n := 4) (m := 12) 0o6 (src.bits ++ dst.bits)
theorem sub (src : Operand) (dst : Operand) : Statement (.sub src dst) :=
  fun _ => inRow (n := 4) (m := 12) 0o16 (src.bits ++ dst.bits)
theorem mul (r : Reg) (src : Operand) : Statement (.mul r src) :=
  fun _ => inRow (n := 7) (m := 9) 0o70 (r.bits ++ src.bits)
theorem div (r : Reg) (src : Operand) : Statement (.div r src) :=
  fun _ => inRow (n := 7) (m := 9) 0o71 (r.bits ++ src.bits)
theorem ash (r : Reg) (src : Operand) : Statement (.ash r src) :=
  fun _ => inRow (n := 7) (m := 9) 0o72 (r.bits ++ src.bits)
theorem ashc (r : Reg) (src : Operand) : Statement (.ashc r src) :=
  fun _ => inRow (n := 7) (m := 9) 0o73 (r.bits ++ src.bits)
theorem xor (r : Reg) (dst : Operand) : Statement (.xor r dst) :=
  fun _ => inRow (n := 7) (m := 9) 0o74 (r.bits ++ dst.bits)
theorem sob (r : Reg) (nn : BitVec 6) : Statement (.sob r nn) := fun _ => inRow (n := 7) (m := 9) 0o77 (r.bits ++ nn)
theorem emt (code : Byte) : Statement (.emt code) := fun _ => inRow (n := 8) (m := 8) 0o210 code
theorem trap (code : Byte) : Statement (.trap code) := fun _ => inRow (n := 8) (m := 8) 0o211 code
theorem mtps (src : Operand) : Statement (.mtps src) := fun _ => inRow (n := 10) (m := 6) 0o1064 src.bits
theorem mfpd (src : Operand) : Statement (.mfpd src) := fun _ => inRow (n := 10) (m := 6) 0o1065 src.bits
theorem mtpd (dst : Operand) : Statement (.mtpd dst) := fun _ => inRow (n := 10) (m := 6) 0o1066 dst.bits
theorem mfps (dst : Operand) : Statement (.mfps dst) := fun _ => inRow (n := 10) (m := 6) 0o1067 dst.bits
theorem cfcc : Statement (.cfcc) := fun _ => rfl
theorem setf : Statement (.setf) := fun _ => rfl
theorem seti : Statement (.seti) := fun _ => rfl
theorem setd : Statement (.setd) := fun _ => rfl
theorem setl : Statement (.setl) := fun _ => rfl
theorem ldfps (src : Operand) : Statement (.ldfps src) := fun _ => inRow (n := 10) (m := 6) 0o1701 src.bits
theorem stfps (dst : Operand) : Statement (.stfps dst) := fun _ => inRow (n := 10) (m := 6) 0o1702 dst.bits
theorem stst (dst : Operand) : Statement (.stst dst) := fun _ => inRow (n := 10) (m := 6) 0o1703 dst.bits
theorem clrf (fdst : Operand) : Statement (.clrf fdst) := fun _ => inRow (n := 10) (m := 6) 0o1704 fdst.bits
theorem tstf (fdst : Operand) : Statement (.tstf fdst) := fun _ => inRow (n := 10) (m := 6) 0o1705 fdst.bits
theorem absf (fdst : Operand) : Statement (.absf fdst) := fun _ => inRow (n := 10) (m := 6) 0o1706 fdst.bits
theorem negf (fdst : Operand) : Statement (.negf fdst) := fun _ => inRow (n := 10) (m := 6) 0o1707 fdst.bits
theorem mulf (ac : Ac) (fsrc : Operand) : Statement (.mulf ac fsrc) :=
  fun _ => inRow (n := 8) (m := 8) 0o362 (ac.bits ++ fsrc.bits)
theorem modf (ac : Ac) (fsrc : Operand) : Statement (.modf ac fsrc) :=
  fun _ => inRow (n := 8) (m := 8) 0o363 (ac.bits ++ fsrc.bits)
theorem addf (ac : Ac) (fsrc : Operand) : Statement (.addf ac fsrc) :=
  fun _ => inRow (n := 8) (m := 8) 0o364 (ac.bits ++ fsrc.bits)
theorem ldf (ac : Ac) (fsrc : Operand) : Statement (.ldf ac fsrc) :=
  fun _ => inRow (n := 8) (m := 8) 0o365 (ac.bits ++ fsrc.bits)
theorem subf (ac : Ac) (fsrc : Operand) : Statement (.subf ac fsrc) :=
  fun _ => inRow (n := 8) (m := 8) 0o366 (ac.bits ++ fsrc.bits)
theorem cmpf (ac : Ac) (fsrc : Operand) : Statement (.cmpf ac fsrc) :=
  fun _ => inRow (n := 8) (m := 8) 0o367 (ac.bits ++ fsrc.bits)
theorem stf (ac : Ac) (fdst : Operand) : Statement (.stf ac fdst) :=
  fun _ => inRow (n := 8) (m := 8) 0o370 (ac.bits ++ fdst.bits)
theorem divf (ac : Ac) (fsrc : Operand) : Statement (.divf ac fsrc) :=
  fun _ => inRow (n := 8) (m := 8) 0o371 (ac.bits ++ fsrc.bits)
theorem stexp (ac : Ac) (dst : Operand) : Statement (.stexp ac dst) :=
  fun _ => inRow (n := 8) (m := 8) 0o372 (ac.bits ++ dst.bits)
theorem stcfi (ac : Ac) (dst : Operand) : Statement (.stcfi ac dst) :=
  fun _ => inRow (n := 8) (m := 8) 0o373 (ac.bits ++ dst.bits)
theorem stcfd (ac : Ac) (fdst : Operand) : Statement (.stcfd ac fdst) :=
  fun _ => inRow (n := 8) (m := 8) 0o374 (ac.bits ++ fdst.bits)
theorem ldexp (ac : Ac) (src : Operand) : Statement (.ldexp ac src) :=
  fun _ => inRow (n := 8) (m := 8) 0o375 (ac.bits ++ src.bits)
theorem ldcif (ac : Ac) (src : Operand) : Statement (.ldcif ac src) :=
  fun _ => inRow (n := 8) (m := 8) 0o376 (ac.bits ++ src.bits)
theorem ldcdf (ac : Ac) (fsrc : Operand) : Statement (.ldcdf ac fsrc) :=
  fun _ => inRow (n := 8) (m := 8) 0o377 (ac.bits ++ fsrc.bits)
theorem l2d (r : Reg) : Statement (.l2d r) := fun _ => inRow (n := 13) (m := 3) 0o07602 r.bits
theorem l3d (r : Reg) : Statement (.l3d r) := fun _ => inRow (n := 13) (m := 3) 0o07606 r.bits
theorem movc : Statement (.movc) := fun _ => rfl
theorem movci : Statement (.movci) := fun _ => rfl
theorem movrc : Statement (.movrc) := fun _ => rfl
theorem movrci : Statement (.movrci) := fun _ => rfl
theorem movtc : Statement (.movtc) := fun _ => rfl
theorem movtci : Statement (.movtci) := fun _ => rfl
theorem locc : Statement (.locc) := fun _ => rfl
theorem locci : Statement (.locci) := fun _ => rfl
theorem skpc : Statement (.skpc) := fun _ => rfl
theorem skpci : Statement (.skpci) := fun _ => rfl
theorem scanc : Statement (.scanc) := fun _ => rfl
theorem scanci : Statement (.scanci) := fun _ => rfl
theorem spanc : Statement (.spanc) := fun _ => rfl
theorem spanci : Statement (.spanci) := fun _ => rfl
theorem cmpc : Statement (.cmpc) := fun _ => rfl
theorem cmpci : Statement (.cmpci) := fun _ => rfl
theorem matc : Statement (.matc) := fun _ => rfl
theorem matci : Statement (.matci) := fun _ => rfl
theorem addn : Statement (.addn) := fun _ => rfl
theorem addni : Statement (.addni) := fun _ => rfl
theorem subn : Statement (.subn) := fun _ => rfl
theorem subni : Statement (.subni) := fun _ => rfl
theorem cmpn : Statement (.cmpn) := fun _ => rfl
theorem cmpni : Statement (.cmpni) := fun _ => rfl
theorem cvtnl : Statement (.cvtnl) := fun _ => rfl
theorem cvtnli : Statement (.cvtnli) := fun _ => rfl
theorem cvtpn : Statement (.cvtpn) := fun _ => rfl
theorem cvtpni : Statement (.cvtpni) := fun _ => rfl
theorem cvtnp : Statement (.cvtnp) := fun _ => rfl
theorem cvtnpi : Statement (.cvtnpi) := fun _ => rfl
theorem ashn : Statement (.ashn) := fun _ => rfl
theorem ashni : Statement (.ashni) := fun _ => rfl
theorem cvtln : Statement (.cvtln) := fun _ => rfl
theorem cvtlni : Statement (.cvtlni) := fun _ => rfl
theorem addp : Statement (.addp) := fun _ => rfl
theorem addpi : Statement (.addpi) := fun _ => rfl
theorem subp : Statement (.subp) := fun _ => rfl
theorem subpi : Statement (.subpi) := fun _ => rfl
theorem cmpp : Statement (.cmpp) := fun _ => rfl
theorem cmppi : Statement (.cmppi) := fun _ => rfl
theorem cvtpl : Statement (.cvtpl) := fun _ => rfl
theorem cvtpli : Statement (.cvtpli) := fun _ => rfl
theorem mulp : Statement (.mulp) := fun _ => rfl
theorem mulpi : Statement (.mulpi) := fun _ => rfl
theorem divp : Statement (.divp) := fun _ => rfl
theorem divpi : Statement (.divpi) := fun _ => rfl
theorem ashp : Statement (.ashp) := fun _ => rfl
theorem ashpi : Statement (.ashpi) := fun _ => rfl
theorem cvtlp : Statement (.cvtlp) := fun _ => rfl
theorem cvtlpi : Statement (.cvtlpi) := fun _ => rfl
theorem reserved (word : Word) : Statement (.reserved word) := fun h => h
theorem fpIllegal (word : Word) : Statement (.fpIllegal word) := fun h => h

end Sys2Proof.Laws.InTable
end

