-- ==== Sys2Proof/Laws/Stores.lean ====
section
/-! SUPPORT. Everything a store, a stack operation, an operand evaluation and a rewrite of an operand can do when it answers,
and how an instruction runs to its end. -/

namespace Sys2Proof.Machine

/-- What a write of a register of the I/O page may change: never memory, the general registers or a request but those of the
serial-line units. -/
def storesIo (s t : State) : Prop :=
  t = { s with ps := t.ps, mmu := t.mmu, board := t.board, slu1 := t.slu1, slu2 := t.slu2, free := t.free }

/-- A write of a register of the I/O page answers (spec/20_memory.md R144). -/
theorem writeIo_ok (r : IoReg) (lane : Lane) (v : Word) (s : State) :
    ∃ t, writeIo r lane v s = .ok ⟨⟩ t ∧ storesIo s t := by
  cases r with
  | cdr | lks | rcsr u | tcsr u =>
    simp only [writeIo, run_bind, run_get]
    cases lane.hasLow
    · exact ⟨s, rfl, rfl⟩
    · first
        | exact ⟨_, rfl, rfl⟩
        | exact ⟨_, rfl, by cases u <;> rfl⟩
  | tbuf u =>
    simp only [writeIo, run_bind, run_get]
    cases lane.hasLow
    · exact ⟨s, rfl, rfl⟩
    · exact ⟨_, rfl, by cases u <;> rfl⟩
  | _ => exact ⟨_, rfl, rfl⟩

/-- The cycle of a write that is answered: of a register of the I/O page, or of memory, whose lane alone changes. -/
theorem writeCycle_ok {pa : PAddr} {lane : Lane} {v : Word} {s t : State} (h : writeCycle pa lane v s = .ok ⟨⟩ t) :
    (isIoPage pa = true ∧ ∃ r, ioDecode s.cfg pa = some r ∧ writeIo r lane v s = .ok ⟨⟩ t)
      ∨ (isIoPage pa = false ∧ populated s.cfg (evenAddr (memoryAddr s.cfg pa)) = true
        ∧ t = { s with mem := s.mem.writeLane (evenAddr (memoryAddr s.cfg pa)) lane v }) := by
  simp only [writeCycle, run_bind, run_get] at h
  cases hio : isIoPage pa with
  | true =>
    simp only [hio, if_true] at h
    cases hd : ioDecode s.cfg pa with
    | none => simp [hd] at h
    | some r => exact .inl ⟨rfl, r, rfl, by simpa only [hd] using h⟩
  | false =>
    simp only [hio, Bool.false_eq_true, if_false] at h
    split at h
    · rename_i hp
      cases h
      exact .inr ⟨rfl, hp, rfl⟩
    · simp at h

/-- The MMU with the W bit of a page register set, if a reference went through one (spec/20_memory.md R131). -/
def Mmu.marked (m : Mmu) : Option (PageSet × Fin 8) → Mmu
  | none => m
  | some (p, n) => m.withPdr p n (m.pdr p n ||| pdrW)

@[simp] theorem markWritten_run (page : Option (PageSet × Fin 8)) (s : State) :
    markWritten page s = .ok ⟨⟩ { s with mmu := s.mmu.marked page } := by
  rcases page with _ | ⟨p, n⟩ <;> rfl

/-- The write half of a cycle answers when something is there: the W bit is set, then the register or memory is written. -/
theorem writeBack_ok {m : Mapped} {size : Size} {v : Word} {s t : State} {p : Bool}
    (h : writeBack m size v s = .ok p t) :
    busAnswers s.cfg m.pa = true ∧ p = isPs s.cfg m.pa
      ∧ writeCycle m.pa (laneOf size m.pa) v { s with mmu := s.mmu.marked m.page } = .ok ⟨⟩ t := by
  simp only [writeBack, run_bind, run_get] at h
  split at h
  · rename_i ha
    simp only [run_bind, markWritten_run] at h
    cases hb : writeCycle m.pa (laneOf size m.pa) v { s with mmu := s.mmu.marked m.page } with
    | error e u => simp [hb] at h
    | ok a u =>
      simp only [hb, run_pure, EStateM.Result.ok.injEq] at h
      exact ⟨ha, h.1.symm, by rw [← h.2]⟩
  · simp at h

/-- A write through a checked reference: the DMA masters have their turn, then the cycle is made. -/
theorem storeMapped_ok {m : Mapped} {size : Size} {v : Word} {s t : State} {p : Bool}
    (h : storeMapped m size v s = .ok p t) : writeBack m size v s.granted = .ok p t := by
  obtain ⟨⟨⟩, g, hg, hw⟩ := bind_ok_iff.mp h
  rw [(busGrant_ok hg).1] at hw
  exact hw

/-- A word write that answers was checked, relocated and stored. -/
theorem writeWordIn_ok {mode : Mode} {va v : Word} {s t : State} {p : Bool} (h : writeWordIn mode va v s = .ok p t) :
    ∃ m, translate mode va true s = .ok m s ∧ storeMapped m .word v s = .ok p t := by
  obtain ⟨m, u, hm, hs⟩ := bind_ok_iff.mp h
  obtain rfl := (translate_ok hm).1
  exact ⟨m, hm, hs⟩

/-- A byte write that answers was checked, relocated and stored. -/
theorem writeByteIn_ok {mode : Mode} {va : Word} {b : Byte} {s t : State} {p : Bool}
    (h : writeByteIn mode va b s = .ok p t) :
    ∃ m, translate mode va true s = .ok m s ∧ storeMapped m .byte (onBothLanes b) s = .ok p t := by
  obtain ⟨m, u, hm, hs⟩ := bind_ok_iff.mp h
  obtain rfl := (translate_ok hm).1
  exact ⟨m, hm, hs⟩

/-- A pop that answers read the top of the stack and moved R6 up (spec/10_state.md R24). -/
theorem pop_ok {s t : State} {w : Word} (h : pop s = .ok w t) :
    ∃ sp u v, readReg .sp s = .ok sp u ∧ readWord sp u = .ok w v ∧ t = v.withReg .sp (sp + 2) := by
  obtain ⟨sp, u, hu, h⟩ := bind_ok_iff.mp h
  obtain ⟨x, v, hv, h⟩ := bind_ok_iff.mp h
  cases h
  exact ⟨sp, u, v, hu, hv, rfl⟩

/-- A push that answers moved R6 down, noted the limit and wrote (spec/10_state.md R24). -/
theorem push_ok {s t : State} {v : Word} {p : Bool} (h : push v s = .ok p t) :
    ∃ sp u x, readReg .sp s = .ok sp u ∧ noteStackLimit (sp - 2) (u.withReg .sp (sp - 2)) = .ok ⟨⟩ x
      ∧ writeWord (sp - 2) v x = .ok p t := by
  obtain ⟨sp, u, hu, h⟩ := bind_ok_iff.mp h
  exact ⟨sp, u, _, hu, rfl, h⟩

/-- An operand field names a register in mode 0 alone, and an address in every other mode. -/
theorem evalField_ok {sz : Nat} {o : Operand} {s t : State} {l : Loc} (h : evalField sz o s = .ok l t) :
    (o.mode = .register ∧ l = .reg o.reg ∧ t = s) ∨ (o.mode ≠ .register ∧ ∃ ea, l = .mem ea) := by
  unfold evalField at h
  cases hm : o.mode <;> simp only [hm] at h
  case register =>
    cases h
    exact .inl ⟨rfl, rfl, rfl⟩
  all_goals
    obtain ⟨a, u, _, h⟩ := bind_ok_iff.mp h
    first
      | (cases h; exact .inr ⟨by simp, _, rfl⟩)
      | (obtain ⟨b, v, _, h⟩ := bind_ok_iff.mp h
         cases h
         exact .inr ⟨by simp, b, rfl⟩)

/-- Rewriting a word operand: what `rewritesWord` says, with the codes computed from the codes before. -/
theorem modifyWord_run {l : Loc} {f : Codes → Word → AluResult 16} {s t : State} {d : Word} {p : Bool}
    (h : rewritesWord l s d (f (psCodes s.ps) d).1 p t) :
    modifyWord l f s = .ok ⟨⟩ (settled p (f (psCodes s.ps) d).2 t) := by
  cases l with
  | reg r =>
    obtain ⟨u, hr, rfl, rfl⟩ := h
    simp only [modifyWord, run_bind, codesNow_run, hr, writeReg_run, setCodesOnly_run]
    rfl
  | mem ea =>
    obtain ⟨m, g, u, hm, hg, hb, hs⟩ := h
    obtain rfl := (busGrant_ok hg).1
    simp only [modifyWord, run_bind, run_get, hm, hg, codesNow_run, granted_ps, hb, hs, setCodes_run]

/-- An instruction that answers is completed. -/
theorem runInstr_ok {m : M Unit} {s t : State} (h : m s = .ok ⟨⟩ t) : runInstr m s = completed t := by
  simp only [runInstr, h, finish, completed]

/-- An instruction that asks for a trap is completed by its trap sequence. -/
theorem runInstr_trap {m : M Unit} {s t : State} {v : Word} (h : m s = .error (.trap v) t) :
    runInstr m s = .next (completeTrap (performTrap { vector := v, kind := .ordinary } t)) := by
  simp only [runInstr, h, finish, Stop.request]

/-- An instruction one of whose references fails is ended by the trap sequence of its abort. -/
theorem runInstr_abort {m : M Unit} {s t : State} {k : AbortKind} (h : m s = .error (.abort k) t) :
    runInstr m s = .next (performTrap { vector := k.vector, kind := .ordinary } t) := by
  simp only [runInstr, h, finish, Stop.request]

end Sys2Proof.Machine
end

