-- ==== Sys2Proof/Tests/Slice0.lean ====
section
/-! SUPPORT. Tests: ill-formed terms, words written out from the encodings, one step of most instructions with the end state
that spec/95_test_vectors.md gives, and for each statement of the obligations a state and operands that meet its hypotheses. -/

open Sys2Proof Sys2Proof.Machine

namespace Sys2Proof.Tests

-- One after the other: some hundred small kernel evaluations at once take more threads than they gain.
set_option Elab.async false

/-! Terms that stand for no word. -/

/-- Masks that have a mnemonic of their own are no generic operator (R209). -/
theorem test_illformed_clear : [0, 1, 2, 4, 8, 15].map (fun k => (Instr.clearCodes k).wellFormed)
    = [false, false, false, false, false, false] := by decide

theorem test_illformed_set : [1, 2, 4, 8, 15].map (fun k => (Instr.setCodes k).wellFormed)
    = [false, false, false, false, false] := by decide

/-- HALT, MFPT, MOV, and MOVC stand in no reserved row (R216). -/
theorem test_illformed_reserved : [0, 7, 0o010102, 0o076030].map (fun w => (Instr.reserved w).wellFormed)
    = [false, false, false, false] := by decide

/-- CFCC, SETD and LDFPS stand in no unassigned row (R218 (c)). -/
theorem test_illformed_fp : [0o170000, 0o170011, 0o170100].map (fun w => (Instr.fpIllegal w).wellFormed)
    = [false, false, false] := by decide

/-- The other masks and words are well-formed. -/
theorem test_wellformed : [Instr.clearCodes 3, .setCodes 0, .setCodes 14, .reserved 0o10, .reserved 0o107777, .fpIllegal 0o170003,
    .fpIllegal 0o170077].map Instr.wellFormed = [true, true, true, true, true, true, true] := by decide

/-! Words written out from the encodings of spec/30_encoding.md. -/

/-- One word of each family, bit by bit. -/
theorem test_decode_bits :
    decodeWord 0b0000101010010011 = .inc ⟨.autoinc, .r3⟩        -- 0 000 101 010 | 010 011
      ∧ decodeWord 0b1000101010110111 = .incb ⟨.index, .pc⟩     -- 1 000 101 010 | 110 111
      ∧ decodeWord 0b0110000010000100 = .add ⟨.register, .r2⟩ ⟨.register, .r4⟩  -- 0 110 | 000 010 | 000 100
      ∧ decodeWord 0b1110010111100001 = .sub ⟨.autoinc, .pc⟩ ⟨.autodec, .r1⟩    -- 1 110 | 010 111 | 100 001
      ∧ decodeWord 0b0111001101001010 = .div .r5 ⟨.registerDeferred, .r2⟩        -- 0 111 001 | 101 | 001 010
      ∧ decodeWord 0b0000001011111110 = .bne 0xFE               -- 0 000 001 0 | 11 111 110
      ∧ decodeWord 0b0111111010000011 = .sob .r2 3              -- 0 111 111 | 010 | 000 011
      ∧ decodeWord 0b0000100111011111 = .jsr .pc ⟨.autoincDeferred, .pc⟩         -- 0 000 100 | 111 | 011 111
      ∧ decodeWord 0b1000100000001010 = .emt 0o12               -- 1 000 100 0 | 00 001 010
      ∧ decodeWord 0b0000000010101011 = .clearCodes 0b1011      -- 0 000 000 010 10 | 1011
      ∧ decodeWord 0b1000110111000110 = .mfps ⟨.register, .sp⟩  -- 1 000 110 111 | 000 110
      ∧ decodeWord 0b1111010010101011 = .addf .ac2 ⟨.autodecDeferred, .r3⟩       -- 1 111 0100 | 10 | 101 011
      ∧ decodeWord 0b0111110000010101 = .l2d .r5                -- 0 111 110 000 010 | 101
      ∧ decodeWord 0b0111110001111000 = .addpi := by decide     -- 0 111 110 001 111 000

theorem test_decode_words1 :
    decodeWord 0o000000 = .halt
      ∧ decodeWord 0o000001 = .wait
      ∧ decodeWord 0o000002 = .rti
      ∧ decodeWord 0o000003 = .bpt
      ∧ decodeWord 0o000004 = .iot
      ∧ decodeWord 0o000005 = .reset
      ∧ decodeWord 0o000006 = .rtt
      ∧ decodeWord 0o000007 = .mfpt
      ∧ decodeWord 0o000127 = .jmp ⟨.autoinc, .pc⟩
      ∧ decodeWord 0o000205 = .rts .r5
      ∧ decodeWord 0o000240 = .nop
      ∧ decodeWord 0o000241 = .clc
      ∧ decodeWord 0o000242 = .clv
      ∧ decodeWord 0o000244 = .clz
      ∧ decodeWord 0o000250 = .cln
      ∧ decodeWord 0o000257 = .ccc
      ∧ decodeWord 0o000246 = .clearCodes 6
      ∧ decodeWord 0o000261 = .sec
      ∧ decodeWord 0o000262 = .sev
      ∧ decodeWord 0o000264 = .sez
      ∧ decodeWord 0o000270 = .sen
      ∧ decodeWord 0o000277 = .scc
      ∧ decodeWord 0o000266 = .setCodes 6
      ∧ decodeWord 0o000363 = .swab ⟨.index, .r3⟩ := by
  decide

theorem test_decode_words2 :
    decodeWord 0o000523 = .br 0o123
      ∧ decodeWord 0o001123 = .bne 0o123
      ∧ decodeWord 0o001523 = .beq 0o123
      ∧ decodeWord 0o002123 = .bge 0o123
      ∧ decodeWord 0o002523 = .blt 0o123
      ∧ decodeWord 0o003123 = .bgt 0o123
      ∧ decodeWord 0o003523 = .ble 0o123
      ∧ decodeWord 0o100123 = .bpl 0o123
      ∧ decodeWord 0o100523 = .bmi 0o123
      ∧ decodeWord 0o101123 = .bhi 0o123
      ∧ decodeWord 0o101523 = .blos 0o123
      ∧ decodeWord 0o102123 = .bvc 0o123
      ∧ decodeWord 0o102523 = .bvs 0o123
      ∧ decodeWord 0o103123 = .bcc 0o123
      ∧ decodeWord 0o103523 = .bcs 0o123
      ∧ decodeWord 0o004514 = .jsr .r5 ⟨.registerDeferred, .r4⟩
      ∧ decodeWord 0o005056 = .clr ⟨.autodecDeferred, .sp⟩
      ∧ decodeWord 0o105001 = .clrb ⟨.register, .r1⟩
      ∧ decodeWord 0o005127 = .com ⟨.autoinc, .pc⟩
      ∧ decodeWord 0o105163 = .comb ⟨.index, .r3⟩
      ∧ decodeWord 0o005214 = .inc ⟨.registerDeferred, .r4⟩
      ∧ decodeWord 0o105256 = .incb ⟨.autodecDeferred, .sp⟩
      ∧ decodeWord 0o005301 = .dec ⟨.register, .r1⟩
      ∧ decodeWord 0o105327 = .decb ⟨.autoinc, .pc⟩ := by
  decide

theorem test_decode_words3 :
    decodeWord 0o005463 = .neg ⟨.index, .r3⟩
      ∧ decodeWord 0o105414 = .negb ⟨.registerDeferred, .r4⟩
      ∧ decodeWord 0o005556 = .adc ⟨.autodecDeferred, .sp⟩
      ∧ decodeWord 0o105501 = .adcb ⟨.register, .r1⟩
      ∧ decodeWord 0o005627 = .sbc ⟨.autoinc, .pc⟩
      ∧ decodeWord 0o105663 = .sbcb ⟨.index, .r3⟩
      ∧ decodeWord 0o005714 = .tst ⟨.registerDeferred, .r4⟩
      ∧ decodeWord 0o105756 = .tstb ⟨.autodecDeferred, .sp⟩
      ∧ decodeWord 0o006001 = .ror ⟨.register, .r1⟩
      ∧ decodeWord 0o106027 = .rorb ⟨.autoinc, .pc⟩
      ∧ decodeWord 0o006163 = .rol ⟨.index, .r3⟩
      ∧ decodeWord 0o106114 = .rolb ⟨.registerDeferred, .r4⟩
      ∧ decodeWord 0o006256 = .asr ⟨.autodecDeferred, .sp⟩
      ∧ decodeWord 0o106201 = .asrb ⟨.register, .r1⟩
      ∧ decodeWord 0o006327 = .asl ⟨.autoinc, .pc⟩
      ∧ decodeWord 0o106363 = .aslb ⟨.index, .r3⟩
      ∧ decodeWord 0o006425 = .mark 0o25
      ∧ decodeWord 0o006514 = .mfpi ⟨.registerDeferred, .r4⟩
      ∧ decodeWord 0o006656 = .mtpi ⟨.autodecDeferred, .sp⟩
      ∧ decodeWord 0o006701 = .sxt ⟨.register, .r1⟩
      ∧ decodeWord 0o012763 = .mov ⟨.autoinc, .pc⟩ ⟨.index, .r3⟩
      ∧ decodeWord 0o111456 = .movb ⟨.registerDeferred, .r4⟩ ⟨.autodecDeferred, .sp⟩
      ∧ decodeWord 0o020127 = .cmp ⟨.register, .r1⟩ ⟨.autoinc, .pc⟩
      ∧ decodeWord 0o126314 = .cmpb ⟨.index, .r3⟩ ⟨.registerDeferred, .r4⟩ := by
  decide

theorem test_decode_words4 :
    decodeWord 0o035601 = .bit ⟨.autodecDeferred, .sp⟩ ⟨.register, .r1⟩
      ∧ decodeWord 0o132763 = .bitb ⟨.autoinc, .pc⟩ ⟨.index, .r3⟩
      ∧ decodeWord 0o041456 = .bic ⟨.registerDeferred, .r4⟩ ⟨.autodecDeferred, .sp⟩
      ∧ decodeWord 0o140127 = .bicb ⟨.register, .r1⟩ ⟨.autoinc, .pc⟩
      ∧ decodeWord 0o056314 = .bis ⟨.index, .r3⟩ ⟨.registerDeferred, .r4⟩
      ∧ decodeWord 0o155601 = .bisb ⟨.autodecDeferred, .sp⟩ ⟨.register, .r1⟩
      ∧ decodeWord 0o062763 = .add ⟨.autoinc, .pc⟩ ⟨.index, .r3⟩
      ∧ decodeWord 0o161456 = .sub ⟨.registerDeferred, .r4⟩ ⟨.autodecDeferred, .sp⟩
      ∧ decodeWord 0o070501 = .mul .r5 ⟨.register, .r1⟩
      ∧ decodeWord 0o071527 = .div .r5 ⟨.autoinc, .pc⟩
      ∧ decodeWord 0o072563 = .ash .r5 ⟨.index, .r3⟩
      ∧ decodeWord 0o073514 = .ashc .r5 ⟨.registerDeferred, .r4⟩
      ∧ decodeWord 0o074556 = .xor .r5 ⟨.autodecDeferred, .sp⟩
      ∧ decodeWord 0o077525 = .sob .r5 0o25
      ∧ decodeWord 0o104123 = .emt 0o123
      ∧ decodeWord 0o104523 = .trap 0o123
      ∧ decodeWord 0o106401 = .mtps ⟨.register, .r1⟩
      ∧ decodeWord 0o106527 = .mfpd ⟨.autoinc, .pc⟩
      ∧ decodeWord 0o106663 = .mtpd ⟨.index, .r3⟩
      ∧ decodeWord 0o106714 = .mfps ⟨.registerDeferred, .r4⟩
      ∧ decodeWord 0o170000 = .cfcc
      ∧ decodeWord 0o170001 = .setf
      ∧ decodeWord 0o170002 = .seti
      ∧ decodeWord 0o170011 = .setd := by
  decide

theorem test_decode_words5 :
    decodeWord 0o170012 = .setl
      ∧ decodeWord 0o170156 = .ldfps ⟨.autodecDeferred, .sp⟩
      ∧ decodeWord 0o170201 = .stfps ⟨.register, .r1⟩
      ∧ decodeWord 0o170327 = .stst ⟨.autoinc, .pc⟩
      ∧ decodeWord 0o170463 = .clrf ⟨.index, .r3⟩
      ∧ decodeWord 0o170514 = .tstf ⟨.registerDeferred, .r4⟩
      ∧ decodeWord 0o170656 = .absf ⟨.autodecDeferred, .sp⟩
      ∧ decodeWord 0o170701 = .negf ⟨.register, .r1⟩
      ∧ decodeWord 0o171227 = .mulf .ac2 ⟨.autoinc, .pc⟩
      ∧ decodeWord 0o171663 = .modf .ac2 ⟨.index, .r3⟩
      ∧ decodeWord 0o172214 = .addf .ac2 ⟨.registerDeferred, .r4⟩
      ∧ decodeWord 0o172656 = .ldf .ac2 ⟨.autodecDeferred, .sp⟩
      ∧ decodeWord 0o173201 = .subf .ac2 ⟨.register, .r1⟩
      ∧ decodeWord 0o173627 = .cmpf .ac2 ⟨.autoinc, .pc⟩
      ∧ decodeWord 0o174263 = .stf .ac2 ⟨.index, .r3⟩
      ∧ decodeWord 0o174614 = .divf .ac2 ⟨.registerDeferred, .r4⟩
      ∧ decodeWord 0o175256 = .stexp .ac2 ⟨.autodecDeferred, .sp⟩
      ∧ decodeWord 0o175601 = .stcfi .ac2 ⟨.register, .r1⟩
      ∧ decodeWord 0o176227 = .stcfd .ac2 ⟨.autoinc, .pc⟩
      ∧ decodeWord 0o176663 = .ldexp .ac2 ⟨.index, .r3⟩
      ∧ decodeWord 0o177214 = .ldcif .ac2 ⟨.registerDeferred, .r4⟩
      ∧ decodeWord 0o177656 = .ldcdf .ac2 ⟨.autodecDeferred, .sp⟩
      ∧ decodeWord 0o076025 = .l2d .r5
      ∧ decodeWord 0o076065 = .l3d .r5 := by
  decide

theorem test_decode_words6 :
    decodeWord 0o076030 = .movc
      ∧ decodeWord 0o076130 = .movci
      ∧ decodeWord 0o076031 = .movrc
      ∧ decodeWord 0o076131 = .movrci
      ∧ decodeWord 0o076032 = .movtc
      ∧ decodeWord 0o076132 = .movtci
      ∧ decodeWord 0o076040 = .locc
      ∧ decodeWord 0o076140 = .locci
      ∧ decodeWord 0o076041 = .skpc
      ∧ decodeWord 0o076141 = .skpci
      ∧ decodeWord 0o076042 = .scanc
      ∧ decodeWord 0o076142 = .scanci
      ∧ decodeWord 0o076043 = .spanc
      ∧ decodeWord 0o076143 = .spanci
      ∧ decodeWord 0o076044 = .cmpc
      ∧ decodeWord 0o076144 = .cmpci
      ∧ decodeWord 0o076045 = .matc
      ∧ decodeWord 0o076145 = .matci
      ∧ decodeWord 0o076050 = .addn
      ∧ decodeWord 0o076150 = .addni
      ∧ decodeWord 0o076051 = .subn
      ∧ decodeWord 0o076151 = .subni
      ∧ decodeWord 0o076052 = .cmpn
      ∧ decodeWord 0o076152 = .cmpni := by
  decide

theorem test_decode_words7 :
    decodeWord 0o076053 = .cvtnl
      ∧ decodeWord 0o076153 = .cvtnli
      ∧ decodeWord 0o076054 = .cvtpn
      ∧ decodeWord 0o076154 = .cvtpni
      ∧ decodeWord 0o076055 = .cvtnp
      ∧ decodeWord 0o076155 = .cvtnpi
      ∧ decodeWord 0o076056 = .ashn
      ∧ decodeWord 0o076156 = .ashni
      ∧ decodeWord 0o076057 = .cvtln
      ∧ decodeWord 0o076157 = .cvtlni
      ∧ decodeWord 0o076070 = .addp
      ∧ decodeWord 0o076170 = .addpi
      ∧ decodeWord 0o076071 = .subp
      ∧ decodeWord 0o076171 = .subpi
      ∧ decodeWord 0o076072 = .cmpp
      ∧ decodeWord 0o076172 = .cmppi
      ∧ decodeWord 0o076073 = .cvtpl
      ∧ decodeWord 0o076173 = .cvtpli
      ∧ decodeWord 0o076074 = .mulp
      ∧ decodeWord 0o076174 = .mulpi
      ∧ decodeWord 0o076075 = .divp
      ∧ decodeWord 0o076175 = .divpi
      ∧ decodeWord 0o076076 = .ashp
      ∧ decodeWord 0o076176 = .ashpi := by
  decide

theorem test_decode_words8 :
    decodeWord 0o076077 = .cvtlp
      ∧ decodeWord 0o076177 = .cvtlpi
      ∧ decodeWord 0o000010 = .reserved 0o000010
      ∧ decodeWord 0o170003 = .fpIllegal 0o170003 := by
  decide

/-- The instruction table's numbering: the word's low byte first (R102). -/
theorem test_decode_table : decodeTableWord 16 0o060204 = some (.add ⟨.register, .r2⟩ ⟨.register, .r4⟩) := by decide

/-! One step, from spec/95_test_vectors.md. -/

/-- Memory with words at even addresses. -/
def wordsIn (m : Memory) : List (Nat × Word) → Memory
  | [] => m
  | (a, w) :: rest => wordsIn (m.writeLane a .word w) rest

/-- A machine with a PS, registers and words in memory, about to fetch at 1000. -/
def machine (ps : Word) (regs : List (Reg × Word)) (words : List (Nat × Word)) : State :=
  withWords { State.reset with ps := ps, mem := wordsIn [] words } ((.pc, 0o1000) :: regs)

/-- The machine with bytes in memory. -/
def bytesIn (bytes : List (Nat × Byte)) (s : State) : State := { s with mem := s.mem.writeAll bytes }

/-- The machine with a user stack pointer. -/
def userSp (w : Word) (s : State) : State := { s with regs := { s.regs with usp := w } }

/-- The machine with an FPS, accumulators, FEC and FEA. -/
def fpIn (fps : Word) (acs : List (Fin 6 × Quad)) (fec : BitVec 4) (fea : Word) (s : State) : State :=
  { s with fpp := { ac := acs.foldl (fun v x => v.set x.1 x.2) s.fpp.ac, fps := fps, fec := fec, fea := fea } }

/-- A property of the state one step leaves. -/
def after (s : State) (p : State → Bool) : Bool :=
  match step s with
  | .next t => p t
  | _ => false

/-- PS<3:0>. -/
def nzvc (t : State) : BitVec 4 := t.ps.extractLsb' 0 4

/-- FPS<3:0>. -/
def fcc (t : State) : BitVec 4 := t.fpp.fps.extractLsb' 0 4

/-- Bytes of memory from an address on. -/
def bytesAt (t : State) (a n : Nat) : List Byte := (List.range n).map fun i => t.mem.read (a + i)

/-- R430: in kernel mode the processor halts. -/
theorem test_halt :
    after (machine 0 [] [(0o1000, 0)]) (fun t => t.run == .halted && t.regs.pc == 0o1002) = true := by decide +kernel
theorem test_rti :
    after (machine 0o17 [(.sp, 0o764)] [(0o1000, 0o2), (0o764, 0o2000), (0o766, 0o345)])
      (fun t => t.reg .sp == 0o770 && t.regs.pc == 0o2000 && t.ps == 0o345) = true := by decide +kernel
theorem test_bpt :
    after (machine 0o5 [(.sp, 0o770)] [(0o1000, 0o3), (0o14, 0o3014), (0o16, 0o340), (0o20, 0o3020), (0o22, 0o341),
        (0o30, 0o3030), (0o32, 0o17), (0o34, 0o3034), (0o36, 0)])
      (fun t => t.reg .sp == 0o764 && t.regs.pc == 0o3014 && t.ps == 0o340 && t.mem.readWord 0o766 == 0o5 &&
          t.mem.readWord 0o764 == 0o1002) = true := by decide +kernel
theorem test_iot :
    after (machine 0o5 [(.sp, 0o770)] [(0o1000, 0o4), (0o14, 0o3014), (0o16, 0o340), (0o20, 0o3020), (0o22, 0o341),
        (0o30, 0o3030), (0o32, 0o17), (0o34, 0o3034), (0o36, 0)])
      (fun t => t.reg .sp == 0o764 && t.regs.pc == 0o3020 && t.ps == 0o341 && t.mem.readWord 0o766 == 0o5 &&
          t.mem.readWord 0o764 == 0o1002) = true := by decide +kernel
theorem test_reset :
    after (machine 0o17 [(.r0, 0o777)] [(0o1000, 0o5)])
      (fun t => t.reg .r0 == 0o777 && t.regs.pc == 0o1002 && t.ps == 0o17) = true := by decide +kernel
theorem test_rtt :
    after (machine 0 [(.sp, 0o764)] [(0o1000, 0o6), (0o2000, 0o5200), (0o2002, 0o5200), (0o14, 0o3014),
        (0o16, 0o340), (0o764, 0o2000), (0o766, 0o20)])
      (fun t => t.reg .sp == 0o770 && t.regs.pc == 0o2000 && t.ps == 0o20) = true := by decide +kernel
theorem test_mfpt :
    after (machine 0 [(.r0, 0o777)] [(0o1000, 0o7)])
      (fun t => t.reg .r0 == 0o3) = true := by decide +kernel
theorem test_jmp :
    after (machine 0 [(.r2, 0o3000)] [(0o1000, 0o122)])
      (fun t => t.reg .r2 == 0o3002 && t.regs.pc == 0o3000) = true := by decide +kernel
theorem test_rts :
    after (machine 0 [(.r5, 0o2004), (.sp, 0o766)] [(0o1000, 0o205), (0o766, 0o5555)])
      (fun t => t.reg .r5 == 0o5555 && t.reg .sp == 0o770 && t.regs.pc == 0o2004) = true := by decide +kernel
theorem test_nop :
    after (machine 0o17 [] [(0o1000, 0o240)])
      (fun t => t.ps == 0o17) = true := by decide +kernel
theorem test_clc :
    after (machine 0o17 [] [(0o1000, 0o241)])
      (fun t => t.ps == 0o16) = true := by decide +kernel
theorem test_clv :
    after (machine 0o17 [] [(0o1000, 0o242)])
      (fun t => t.ps == 0o15) = true := by decide +kernel
theorem test_clz :
    after (machine 0o17 [] [(0o1000, 0o244)])
      (fun t => t.ps == 0o13) = true := by decide +kernel
theorem test_cln :
    after (machine 0o17 [] [(0o1000, 0o250)])
      (fun t => t.ps == 0o7) = true := by decide +kernel
theorem test_ccc :
    after (machine 0o17 [] [(0o1000, 0o257)])
      (fun t => t.ps == 0) = true := by decide +kernel
theorem test_clearcodes :
    after (machine 0o17 [] [(0o1000, 0o243)])
      (fun t => t.ps == 0o14) = true := by decide +kernel
theorem test_sec :
    after (machine 0 [] [(0o1000, 0o261)])
      (fun t => t.ps == 0o1) = true := by decide +kernel
theorem test_sev :
    after (machine 0 [] [(0o1000, 0o262)])
      (fun t => t.ps == 0o2) = true := by decide +kernel
theorem test_sez :
    after (machine 0 [] [(0o1000, 0o264)])
      (fun t => t.ps == 0o4) = true := by decide +kernel
theorem test_sen :
    after (machine 0 [] [(0o1000, 0o270)])
      (fun t => t.ps == 0o10) = true := by decide +kernel
theorem test_scc :
    after (machine 0 [] [(0o1000, 0o277)])
      (fun t => t.ps == 0o17) = true := by decide +kernel
theorem test_setcodes :
    after (machine 0 [] [(0o1000, 0o260)])
      (fun t => t.ps == 0) = true := by decide +kernel
theorem test_swab :
    after (machine 0o17 [(.r0, 0o377)] [(0o1000, 0o300)])
      (fun t => t.reg .r0 == 0o177400 && t.regs.pc == 0o1002 && nzvc t == 0b0100) = true := by decide +kernel
theorem test_br :
    after (machine 0o17 [] [(0o1000, 0o410)])
      (fun t => t.regs.pc == 0o1022 && nzvc t == 0b1111) = true := by decide +kernel
theorem test_bne :
    after (machine 0o17 [] [(0o1000, 0o1010)])
      (fun t => t.regs.pc == 0o1002 && nzvc t == 0b1111) = true := by decide +kernel
theorem test_beq :
    after (machine 0o17 [] [(0o1000, 0o1410)])
      (fun t => t.regs.pc == 0o1022 && nzvc t == 0b1111) = true := by decide +kernel
theorem test_bge :
    after (machine 0o17 [] [(0o1000, 0o2010)])
      (fun t => t.regs.pc == 0o1022 && nzvc t == 0b1111) = true := by decide +kernel
theorem test_blt :
    after (machine 0o17 [] [(0o1000, 0o2410)])
      (fun t => t.regs.pc == 0o1002 && nzvc t == 0b1111) = true := by decide +kernel
theorem test_bgt :
    after (machine 0o17 [] [(0o1000, 0o3010)])
      (fun t => t.regs.pc == 0o1002 && nzvc t == 0b1111) = true := by decide +kernel
theorem test_ble :
    after (machine 0o17 [] [(0o1000, 0o3410)])
      (fun t => t.regs.pc == 0o1022 && nzvc t == 0b1111) = true := by decide +kernel
theorem test_bpl :
    after (machine 0o17 [] [(0o1000, 0o100010)])
      (fun t => t.regs.pc == 0o1002 && nzvc t == 0b1111) = true := by decide +kernel
theorem test_bmi :
    after (machine 0o17 [] [(0o1000, 0o100410)])
      (fun t => t.regs.pc == 0o1022 && nzvc t == 0b1111) = true := by decide +kernel
theorem test_bhi :
    after (machine 0o17 [] [(0o1000, 0o101010)])
      (fun t => t.regs.pc == 0o1002 && nzvc t == 0b1111) = true := by decide +kernel
theorem test_blos :
    after (machine 0o17 [] [(0o1000, 0o101410)])
      (fun t => t.regs.pc == 0o1022 && nzvc t == 0b1111) = true := by decide +kernel
theorem test_bvc :
    after (machine 0o17 [] [(0o1000, 0o102010)])
      (fun t => t.regs.pc == 0o1002 && nzvc t == 0b1111) = true := by decide +kernel
theorem test_bvs :
    after (machine 0o17 [] [(0o1000, 0o102410)])
      (fun t => t.regs.pc == 0o1022 && nzvc t == 0b1111) = true := by decide +kernel
theorem test_bcc :
    after (machine 0o17 [] [(0o1000, 0o103010)])
      (fun t => t.regs.pc == 0o1002 && nzvc t == 0b1111) = true := by decide +kernel
theorem test_bcs :
    after (machine 0o17 [] [(0o1000, 0o103410)])
      (fun t => t.regs.pc == 0o1022 && nzvc t == 0b1111) = true := by decide +kernel
theorem test_jsr :
    after (machine 0 [(.sp, 0o770)] [(0o1000, 0o4706), (0o4, 0o4000), (0o6, 0)])
      (fun t => t.reg .sp == 0o764 && t.regs.pc == 0o4000 && t.mem.readWord 0o766 == 0 &&
          t.mem.readWord 0o764 == 0o1002) = true := by decide +kernel
theorem test_clr :
    after (machine 0o17 [(.r0, 0)] [(0o1000, 0o5000)])
      (fun t => t.reg .r0 == 0 && t.regs.pc == 0o1002 && nzvc t == 0b0100) = true := by decide +kernel
theorem test_clrb :
    after (machine 0o17 [(.r0, 0o122400)] [(0o1000, 0o105000)])
      (fun t => t.reg .r0 == 0o122400 && t.regs.pc == 0o1002 && nzvc t == 0b0100) = true := by decide +kernel
theorem test_com :
    after (machine 0 [(.r0, 0)] [(0o1000, 0o5100)])
      (fun t => t.reg .r0 == 0o177777 && t.regs.pc == 0o1002 && nzvc t == 0b1001) = true := by decide +kernel
theorem test_comb :
    after (machine 0 [(.r0, 0o122400)] [(0o1000, 0o105100)])
      (fun t => t.reg .r0 == 0o122777 && t.regs.pc == 0o1002 && nzvc t == 0b1001) = true := by decide +kernel
theorem test_inc :
    after (machine 0o1 [(.r0, 0o77777)] [(0o1000, 0o5200)])
      (fun t => t.reg .r0 == 0o100000 && t.regs.pc == 0o1002 && nzvc t == 0b1011) = true := by decide +kernel
theorem test_incb :
    after (machine 0 [(.r0, 0o122577)] [(0o1000, 0o105200)])
      (fun t => t.reg .r0 == 0o122600 && t.regs.pc == 0o1002 && nzvc t == 0b1010) = true := by decide +kernel
theorem test_dec :
    after (machine 0o1 [(.r0, 0)] [(0o1000, 0o5300)])
      (fun t => t.reg .r0 == 0o177777 && t.regs.pc == 0o1002 && nzvc t == 0b1001) = true := by decide +kernel
theorem test_decb :
    after (machine 0 [(.r0, 0o122400)] [(0o1000, 0o105300)])
      (fun t => t.reg .r0 == 0o122777 && t.regs.pc == 0o1002 && nzvc t == 0b1000) = true := by decide +kernel
theorem test_neg :
    after (machine 0 [(.r0, 0o100000)] [(0o1000, 0o5400)])
      (fun t => t.reg .r0 == 0o100000 && t.regs.pc == 0o1002 && nzvc t == 0b1011) = true := by decide +kernel
theorem test_negb :
    after (machine 0 [(.r0, 0o122600)] [(0o1000, 0o105400)])
      (fun t => t.reg .r0 == 0o122600 && t.regs.pc == 0o1002 && nzvc t == 0b1011) = true := by decide +kernel
theorem test_adc :
    after (machine 0o1 [(.r0, 0o77777)] [(0o1000, 0o5500)])
      (fun t => t.reg .r0 == 0o100000 && t.regs.pc == 0o1002 && nzvc t == 0b1010) = true := by decide +kernel
theorem test_adcb :
    after (machine 0o1 [(.r0, 0o122577)] [(0o1000, 0o105500)])
      (fun t => t.reg .r0 == 0o122600 && t.regs.pc == 0o1002 && nzvc t == 0b1010) = true := by decide +kernel
theorem test_sbc :
    after (machine 0o1 [(.r0, 0)] [(0o1000, 0o5600)])
      (fun t => t.reg .r0 == 0o177777 && t.regs.pc == 0o1002 && nzvc t == 0b1001) = true := by decide +kernel
theorem test_sbcb :
    after (machine 0o1 [(.r0, 0o122400)] [(0o1000, 0o105600)])
      (fun t => t.reg .r0 == 0o122777 && t.regs.pc == 0o1002 && nzvc t == 0b1001) = true := by decide +kernel
theorem test_tst :
    after (machine 0 [(.r0, 0o160000), (.sp, 0o770)] [(0o1000, 0o5720), (0o4, 0o4000), (0o6, 0o340)])
      (fun t => t.reg .r0 == 0o160002 && t.reg .sp == 0o764 && t.regs.pc == 0o4000 && t.ps == 0o340 &&
          t.mem.readWord 0o766 == 0 && t.mem.readWord 0o764 == 0o1002) = true := by decide +kernel
theorem test_tstb :
    after (machine 0o17 [(.r0, 0o122400)] [(0o1000, 0o105700)])
      (fun t => t.reg .r0 == 0o122400 && t.regs.pc == 0o1002 && nzvc t == 0b0100) = true := by decide +kernel
theorem test_ror :
    after (machine 0 [(.r0, 0o1)] [(0o1000, 0o6000)])
      (fun t => t.reg .r0 == 0 && t.regs.pc == 0o1002 && nzvc t == 0b0111) = true := by decide +kernel
theorem test_rorb :
    after (machine 0 [(.r0, 0o122401)] [(0o1000, 0o106000)])
      (fun t => t.reg .r0 == 0o122400 && t.regs.pc == 0o1002 && nzvc t == 0b0111) = true := by decide +kernel
theorem test_rol :
    after (machine 0 [(.r0, 0o100000)] [(0o1000, 0o6100)])
      (fun t => t.reg .r0 == 0 && t.regs.pc == 0o1002 && nzvc t == 0b0111) = true := by decide +kernel
theorem test_rolb :
    after (machine 0 [(.r0, 0o122600)] [(0o1000, 0o106100)])
      (fun t => t.reg .r0 == 0o122400 && t.regs.pc == 0o1002 && nzvc t == 0b0111) = true := by decide +kernel
theorem test_asr :
    after (machine 0 [(.r0, 0o1)] [(0o1000, 0o6200)])
      (fun t => t.reg .r0 == 0 && t.regs.pc == 0o1002 && nzvc t == 0b0111) = true := by decide +kernel
theorem test_asrb :
    after (machine 0 [(.r0, 0o122401)] [(0o1000, 0o106200)])
      (fun t => t.reg .r0 == 0o122400 && t.regs.pc == 0o1002 && nzvc t == 0b0111) = true := by decide +kernel
theorem test_asl :
    after (machine 0 [(.r0, 0o100000)] [(0o1000, 0o6300)])
      (fun t => t.reg .r0 == 0 && t.regs.pc == 0o1002 && nzvc t == 0b0111) = true := by decide +kernel
theorem test_aslb :
    after (machine 0 [(.r0, 0o122600)] [(0o1000, 0o106300)])
      (fun t => t.reg .r0 == 0o122400 && t.regs.pc == 0o1002 && nzvc t == 0b0111) = true := by decide +kernel
theorem test_mark :
    after (machine 0 [(.r5, 0o2222)] [(0o1000, 0o6402), (0o1006, 0o7777)])
      (fun t => t.reg .r5 == 0o7777 && t.reg .sp == 0o1010 && t.regs.pc == 0o2222) = true := by decide +kernel
theorem test_mfpi :
    after (machine 0 [(.r0, 0o4321), (.sp, 0o770)] [(0o1000, 0o6500)])
      (fun t => t.reg .sp == 0o766 && nzvc t == 0b0000 && t.mem.readWord 0o766 == 0o4321) = true := by decide +kernel
theorem test_mtpi :
    after (machine 0o17 [(.sp, 0o766)] [(0o1000, 0o6600), (0o766, 0o100000)])
      (fun t => t.reg .r0 == 0o100000 && t.reg .sp == 0o770 && nzvc t == 0b1001) = true := by decide +kernel
theorem test_sxt :
    after (machine 0o5 [(.r0, 0o52525)] [(0o1000, 0o6700)])
      (fun t => t.reg .r0 == 0 && t.regs.pc == 0o1002 && nzvc t == 0b0101) = true := by decide +kernel
theorem test_mov :
    after (machine 0o17 [(.r0, 0), (.r1, 0o123456)] [(0o1000, 0o10001)])
      (fun t => t.reg .r0 == 0 && t.reg .r1 == 0 && nzvc t == 0b0101) = true := by decide +kernel
theorem test_movb :
    after (machine 0o3 [(.r0, 0o200), (.r1, 0o52525)] [(0o1000, 0o110001)])
      (fun t => t.reg .r0 == 0o200 && t.reg .r1 == 0o177600 && nzvc t == 0b1001) = true := by decide +kernel
theorem test_cmp :
    after (machine 0 [(.r0, 0o77777), (.r1, 0o100000)] [(0o1000, 0o20001)])
      (fun t => t.reg .r0 == 0o77777 && t.reg .r1 == 0o100000 && nzvc t == 0b1011) = true := by decide +kernel
theorem test_cmpb :
    after (machine 0 [(.r0, 0o177), (.r1, 0o200)] [(0o1000, 0o120001)])
      (fun t => t.reg .r0 == 0o177 && t.reg .r1 == 0o200 && nzvc t == 0b1011) = true := by decide +kernel
theorem test_bit :
    after (machine 0o17 [(.r0, 0o170000), (.r1, 0o7777)] [(0o1000, 0o30001)])
      (fun t => t.reg .r0 == 0o170000 && t.reg .r1 == 0o7777 && nzvc t == 0b0101) = true := by decide +kernel
theorem test_bitb :
    after (machine 0o1 [(.r0, 0o177), (.r1, 0o177600)] [(0o1000, 0o130001)])
      (fun t => t.reg .r0 == 0o177 && t.reg .r1 == 0o177600 && nzvc t == 0b0101) = true := by decide +kernel
theorem test_bic :
    after (machine 0o1 [(.r0, 0o177777), (.r1, 0o123456)] [(0o1000, 0o40001)])
      (fun t => t.reg .r0 == 0o177777 && t.reg .r1 == 0 && nzvc t == 0b0101) = true := by decide +kernel
theorem test_bicb :
    after (machine 0o1 [(.r0, 0o17), (.r1, 0o125377)] [(0o1000, 0o140001)])
      (fun t => t.reg .r0 == 0o17 && t.reg .r1 == 0o125360 && nzvc t == 0b1001) = true := by decide +kernel
theorem test_bis :
    after (machine 0o3 [(.r0, 0), (.r1, 0)] [(0o1000, 0o50001)])
      (fun t => t.reg .r0 == 0 && t.reg .r1 == 0 && nzvc t == 0b0101) = true := by decide +kernel
theorem test_bisb :
    after (machine 0o1 [(.r0, 0o200), (.r1, 0o125001)] [(0o1000, 0o150001)])
      (fun t => t.reg .r0 == 0o200 && t.reg .r1 == 0o125201 && nzvc t == 0b1001) = true := by decide +kernel
theorem test_add :
    after (machine 0 [(.r0, 0o100000), (.r1, 0o100000)] [(0o1000, 0o60001)])
      (fun t => t.reg .r0 == 0o100000 && t.reg .r1 == 0 && nzvc t == 0b0111) = true := by decide +kernel
theorem test_sub :
    after (machine 0 [(.r0, 0o177777), (.r1, 0o77777)] [(0o1000, 0o160001)])
      (fun t => t.reg .r0 == 0o177777 && t.reg .r1 == 0o100000 && nzvc t == 0b1011) = true := by decide +kernel
theorem test_mul :
    after (machine 0 [(.r0, 0o177776), (.r1, 0)] [(0o1000, 0o70027), (0o1002, 0o40001)])
      (fun t => t.reg .r0 == 0o177777 && t.reg .r1 == 0o77776 && nzvc t == 0b1001) = true := by decide +kernel
theorem test_div :
    after (machine 0 [(.r0, 0), (.r1, 0)] [(0o1000, 0o71027), (0o1002, 0)])
      (fun t => t.reg .r0 == 0 && t.reg .r1 == 0 && nzvc t == 0b0011) = true := by decide +kernel
theorem test_ash :
    after (machine 0 [(.r0, 0o100000), (.r1, 0)] [(0o1000, 0o72027), (0o1002, 0o1)])
      (fun t => t.reg .r0 == 0 && t.reg .r1 == 0 && nzvc t == 0b0111) = true := by decide +kernel
theorem test_ashc :
    after (machine 0 [(.r0, 0), (.r1, 0o100000)] [(0o1000, 0o73027), (0o1002, 0o21)])
      (fun t => t.reg .r0 == 0 && t.reg .r1 == 0 && nzvc t == 0b0111) = true := by decide +kernel
theorem test_xor :
    after (machine 0o1 [(.r0, 0o125252), (.r2, 0o125252)] [(0o1000, 0o74200)])
      (fun t => t.reg .r0 == 0 && nzvc t == 0b0101) = true := by decide +kernel
theorem test_sob :
    after (machine 0o17 [(.r0, 0o2)] [(0o1000, 0o77003)])
      (fun t => t.reg .r0 == 0o1 && t.regs.pc == 0o774 && nzvc t == 0b1111) = true := by decide +kernel
theorem test_emt :
    after (machine 0o5 [(.sp, 0o770)] [(0o1000, 0o104000), (0o14, 0o3014), (0o16, 0o340), (0o20, 0o3020),
        (0o22, 0o341), (0o30, 0o3030), (0o32, 0o17), (0o34, 0o3034), (0o36, 0)])
      (fun t => t.reg .sp == 0o764 && t.regs.pc == 0o3030 && t.ps == 0o17 && t.mem.readWord 0o766 == 0o5 &&
          t.mem.readWord 0o764 == 0o1002) = true := by decide +kernel
theorem test_trap :
    after (machine 0o5 [(.sp, 0o770)] [(0o1000, 0o104400), (0o14, 0o3014), (0o16, 0o340), (0o20, 0o3020),
        (0o22, 0o341), (0o30, 0o3030), (0o32, 0o17), (0o34, 0o3034), (0o36, 0)])
      (fun t => t.reg .sp == 0o764 && t.regs.pc == 0o3034 && t.ps == 0 && t.mem.readWord 0o766 == 0o5 &&
          t.mem.readWord 0o764 == 0o1002) = true := by decide +kernel
theorem test_mtps :
    after (machine 0 [] [(0o1000, 0o106427), (0o1002, 0o377)])
      (fun t => t.ps == 0o357) = true := by decide +kernel
theorem test_mfps :
    after (machine 0o345 [(.r0, 0o2001)] [(0o1000, 0o106710), (0o2000, 0o125252)])
      (fun t => t.ps == 0o351 && t.mem.readWord 0o2000 == 0o162652) = true := by decide +kernel
theorem test_cfcc :
    after (fpIn 0o12 [] 0 0 (machine 0o5 [] [(0o1000, 0o170000)]))
      (fun t => nzvc t == 0b1010) = true := by decide +kernel
theorem test_setf :
    after (fpIn 0o200 [] 0 0 (machine 0 [] [(0o1000, 0o170001)]))
      (fun t => t.fpp.fps == 0) = true := by decide +kernel
theorem test_seti :
    after (fpIn 0o100 [] 0 0 (machine 0 [] [(0o1000, 0o170002)]))
      (fun t => t.fpp.fps == 0) = true := by decide +kernel
theorem test_setd :
    after (fpIn 0 [] 0 0 (machine 0 [] [(0o1000, 0o170011)]))
      (fun t => t.fpp.fps == 0o200) = true := by decide +kernel
theorem test_setl :
    after (fpIn 0 [] 0 0 (machine 0 [] [(0o1000, 0o170012)]))
      (fun t => t.fpp.fps == 0o100) = true := by decide +kernel
theorem test_ldfps :
    after (fpIn 0 [] 0 0 (machine 0 [] [(0o1000, 0o170127), (0o1002, 0o200)]))
      (fun t => t.fpp.fps == 0o200) = true := by decide +kernel
theorem test_stfps :
    after (fpIn 0o200 [] 0 0 (machine 0 [] [(0o1000, 0o170200)]))
      (fun t => t.reg .r0 == 0o200) = true := by decide +kernel
theorem test_stst :
    after (fpIn 0 [] 4 0o1000 (machine 0 [] [(0o1000, 0o170337), (0o1002, 0o2000)]))
      (fun t => t.mem.readWord 0o2000 == 0o4 && t.mem.readWord 0o2002 == 0o1000) = true := by decide +kernel
theorem test_clrf :
    after (fpIn 0 [(5, 0x4140000100020003)] 0 0 (machine 0 [] [(0o1000, 0o170405)]))
      (fun t => t.fpp.ac[5] == 0x0000000000020003 && t.fpp.fps == 0o4) = true := by decide +kernel
theorem test_tstf :
    after (fpIn 0 [(0, 0xC080000000000000)] 0 0 (machine 0 [] [(0o1000, 0o170500)]))
      (fun t => t.fpp.fps == 0o10) = true := by decide +kernel
theorem test_absf :
    after (fpIn 0 [(3, 0xC080000000000000)] 0 0 (machine 0 [] [(0o1000, 0o170603)]))
      (fun t => t.fpp.ac[3] == 0x4080000000000000 && t.fpp.fps == 0) = true := by decide +kernel
theorem test_negf :
    after (fpIn 0 [(0, 0x4080000000000000)] 0 0 (machine 0 [] [(0o1000, 0o170700)]))
      (fun t => t.fpp.ac[0] == 0xC080000000000000 && t.fpp.fps == 0o10) = true := by decide +kernel
theorem test_mulf :
    after (fpIn 0o40000 [(0, 0x4140000000000000), (1, 0x4220000000000000)] 0 0 (machine 0 [] [(0o1000, 0o171001)]))
      (fun t => t.fpp.ac[0] == 0x42F0000000000000 && fcc t == 0b0000) = true := by decide +kernel
theorem test_modf :
    after (fpIn 0 [(0, 0x4120000000000000), (1, 0x4140000000000000)] 0 0 (machine 0 [] [(0o1000, 0o171401)]))
      (fun t => t.fpp.ac[0] == 0x4000000000000000 && t.fpp.ac[1] == 0x41E0000000000000 &&
          fcc t == 0b0000) = true := by decide +kernel
theorem test_addf :
    after (fpIn 0o40000 [(0, 0x4080000000000000), (1, 0x4100000000000000)] 0 0 (machine 0 [] [(0o1000, 0o172001)]))
      (fun t => t.fpp.ac[0] == 0x4140000000000000 && fcc t == 0b0000) = true := by decide +kernel
theorem test_ldf :
    after (machine 0 [] [(0o1000, 0o172427), (0o1002, 0o40200)])
      (fun t => t.regs.pc == 0o1004 && t.fpp.ac[0] == 0x4080000000000000) = true := by decide +kernel
theorem test_subf :
    after (fpIn 0o40000 [(0, 0x4080000000000000), (1, 0x3400000000000000)] 0 0 (machine 0 [] [(0o1000, 0o173001)]))
      (fun t => t.fpp.ac[0] == 0x4080000000000000 && fcc t == 0b0000) = true := by decide +kernel
theorem test_cmpf :
    after (fpIn 0 [(0, 0x4080000000000000), (1, 0x4100000000000000)] 0 0 (machine 0 [] [(0o1000, 0o173401)]))
      (fun t => t.fpp.fps == 0) = true := by decide +kernel
theorem test_stf :
    after (fpIn 0o3 [(0, 0x4140000000000000)] 0 0 (machine 0 [] [(0o1000, 0o174037), (0o1002, 0o3000)]))
      (fun t => t.mem.readWord 0o3000 == 0o40500 && t.mem.readWord 0o3002 == 0 &&
          t.fpp.fps == 0o3) = true := by decide +kernel
theorem test_divf :
    after (fpIn 0 [(0, 0x4080000000000000), (1, 0x0000000000000000)] 0 0 (machine 0 [(.sp, 0o770)]
        [(0o1000, 0o174401), (0o244, 0o6000), (0o246, 0o340)]))
      (fun t => t.reg .sp == 0o764 && t.regs.pc == 0o6000 && t.ps == 0o340 && t.mem.readWord 0o766 == 0 &&
          t.mem.readWord 0o764 == 0o1002 && t.fpp.ac[0] == 0x4080000000000000 && t.fpp.fps == 0o100000 &&
          t.fpp.fec == 4 && t.fpp.fea == 0o1000) = true := by decide +kernel
theorem test_stexp :
    after (fpIn 0 [(0, 0x3F80000000000000)] 0 0 (machine 0 [] [(0o1000, 0o175000)]))
      (fun t => t.reg .r0 == 0o177777 && nzvc t == 0b1000) = true := by decide +kernel
theorem test_stcfi :
    after (fpIn 0 [(0, 0x4800000000000000)] 0 0 (machine 0 [] [(0o1000, 0o175401)]))
      (fun t => t.reg .r1 == 0 && nzvc t == 0b0101 && fcc t == 0b0101) = true := by decide +kernel
theorem test_ldexp :
    after (fpIn 0 [(0, 0x4080000000000000)] 0 0 (machine 0 [(.r0, 0o5)] [(0o1000, 0o176400)]))
      (fun t => t.fpp.ac[0] == 0x4280000000000000) = true := by decide +kernel
theorem test_ldcif :
    after (fpIn 0o100 [] 0 0 (machine 0 [(.r0, 0o2000)] [(0o1000, 0o177010), (0o2000, 0o77777), (0o2002, 0o177777)]))
      (fun t => t.fpp.ac[0] == 0x5000000000000000 && fcc t == 0b0000) = true := by decide +kernel
theorem test_ldcdf :
    after (fpIn 0 [(0, 0x0000000000050006)] 0 0 (machine 0 [(.r1, 0o2000)] [(0o1000, 0o177411), (0o2000, 0o37314),
        (0o2002, 0o146314), (0o2004, 0o146314), (0o2006, 0o146315)]))
      (fun t => t.fpp.ac[0] == 0x3ECCCCCD00050006 && t.fpp.fps == 0) = true := by decide +kernel
theorem test_l2d :
    after (machine 0o17 [(.r5, 0o2000)] [(0o1000, 0o76025), (0o2000, 0o3000), (0o2002, 0o3010), (0o3000, 0o5),
        (0o3002, 0o4000), (0o3010, 0o3), (0o3012, 0o4100)])
      (fun t => t.reg .r0 == 0o5 && t.reg .r1 == 0o4000 && t.reg .r2 == 0o3 && t.reg .r3 == 0o4100 &&
          t.reg .r5 == 0o2004 && t.regs.pc == 0o1002 && nzvc t == 0b1111) = true := by decide +kernel
theorem test_l3d :
    after (machine 0 [] [(0o1000, 0o76067), (0o1002, 0o3000), (0o1004, 0o3010), (0o1006, 0o3020), (0o3000, 0o1),
        (0o3002, 0o2), (0o3010, 0o3), (0o3012, 0o4), (0o3020, 0o5), (0o3022, 0o6)])
      (fun t => t.reg .r0 == 0o1 && t.reg .r1 == 0o2 && t.reg .r2 == 0o3 && t.reg .r3 == 0o4 && t.reg .r4 == 0o5 &&
          t.reg .r5 == 0o6 && t.regs.pc == 0o1010) = true := by decide +kernel
theorem test_movc :
    after (bytesIn [(0o2000, 0o101), (0o2001, 0o102), (0o2002, 0o103)] (machine 0 [(.r0, 0o3), (.r1, 0o2000),
        (.r2, 0o5), (.r3, 0o3000), (.r4, 0o40)] [(0o1000, 0o76030)]))
      (fun t => t.reg .r0 == 0 && t.reg .r1 == 0 && t.reg .r2 == 0 && t.reg .r3 == 0 && t.reg .r4 == 0o40 &&
          nzvc t == 0b1001 && bytesAt t 0o3000 5 == [0o101, 0o102, 0o103, 0o40, 0o40]) = true := by decide +kernel
theorem test_movci :
    after (bytesIn [(0o2000, 0o101), (0o2001, 0o102), (0o2002, 0o103)] (machine 0 [(.r0, 0o111111), (.r1, 0o111111),
        (.r2, 0o111111), (.r3, 0o111111), (.r4, 0o111111), (.r5, 0o111111)] [(0o1000, 0o76130), (0o1002, 0o2100),
        (0o1004, 0o2104), (0o1006, 0o40), (0o2100, 0o3), (0o2102, 0o2000), (0o2104, 0o5), (0o2106, 0o3000)]))
      (fun t => t.reg .r0 == 0o111111 && t.reg .r1 == 0o111111 && t.reg .r2 == 0o111111 && t.reg .r3 == 0o111111 &&
          t.reg .r4 == 0o111111 && t.reg .r5 == 0o111111 && t.regs.pc == 0o1010 && nzvc t == 0b1001 &&
          bytesAt t 0o3000 5 == [0o101, 0o102, 0o103, 0o40, 0o40]) = true := by decide +kernel
theorem test_movrc :
    after (bytesIn [(0o2000, 0o101), (0o2001, 0o102)] (machine 0 [(.r0, 0o2), (.r1, 0o2000), (.r2, 0o4),
        (.r3, 0o3000), (.r4, 0o60)] [(0o1000, 0o76031)]))
      (fun t => t.reg .r0 == 0 && nzvc t == 0b1001 &&
          bytesAt t 0o3000 4 == [0o60, 0o60, 0o101, 0o102]) = true := by decide +kernel
theorem test_movtc :
    after (bytesIn [(0o2000, 0o141), (0o2001, 0o142), (0o4141, 0o101), (0o4142, 0o102), (0o4143, 0o103),
        (0o4144, 0o104), (0o4145, 0o105), (0o4146, 0o106), (0o4147, 0o107), (0o4150, 0o110), (0o4151, 0o111),
        (0o4152, 0o112), (0o4153, 0o113), (0o4154, 0o114), (0o4155, 0o115), (0o4156, 0o116), (0o4157, 0o117),
        (0o4160, 0o120), (0o4161, 0o121), (0o4162, 0o122), (0o4163, 0o123), (0o4164, 0o124), (0o4165, 0o125),
        (0o4166, 0o126), (0o4167, 0o127), (0o4170, 0o130), (0o4171, 0o131), (0o4172, 0o132)] (machine 0 [(.r0, 0o2),
        (.r1, 0o2000), (.r2, 0o3), (.r3, 0o3000), (.r4, 0o40), (.r5, 0o4000)] [(0o1000, 0o76032)]))
      (fun t => t.reg .r0 == 0 && t.reg .r1 == 0 && t.reg .r2 == 0 && t.reg .r3 == 0 && t.reg .r4 == 0o40 &&
          t.reg .r5 == 0o4000 && nzvc t == 0b1001 &&
          bytesAt t 0o3000 3 == [0o101, 0o102, 0o40]) = true := by decide +kernel
theorem test_locc :
    after (bytesIn [(0o2000, 0o101), (0o2001, 0o54), (0o2002, 0o102), (0o2003, 0o54),
        (0o2004, 0o103)] (machine 0 [(.r0, 0o5), (.r1, 0o2000), (.r4, 0o132)] [(0o1000, 0o76040)]))
      (fun t => t.reg .r0 == 0 && t.reg .r1 == 0o2005 && nzvc t == 0b0100) = true := by decide +kernel
theorem test_locci :
    after (bytesIn [(0o2000, 0o101), (0o2001, 0o54), (0o2002, 0o102), (0o2003, 0o54), (0o2004, 0o103)] (machine 0 []
        [(0o1000, 0o76140), (0o1002, 0o2100), (0o1004, 0o54), (0o2100, 0o5), (0o2102, 0o2000)]))
      (fun t => t.reg .r0 == 0o4 && t.reg .r1 == 0o2001 && t.reg .r2 == 0 && t.reg .r3 == 0 && t.reg .r4 == 0 &&
          t.reg .r5 == 0 && t.regs.pc == 0o1006) = true := by decide +kernel
theorem test_skpc :
    after (bytesIn [(0o2000, 0o40), (0o2001, 0o40), (0o2002, 0o101), (0o2003, 0o102)] (machine 0 [(.r0, 0o4),
        (.r1, 0o2000), (.r4, 0o40)] [(0o1000, 0o76041)]))
      (fun t => t.reg .r0 == 0o2 && t.reg .r1 == 0o2002 && nzvc t == 0b0000) = true := by decide +kernel
theorem test_scanc :
    after (bytesIn [(0o2000, 0o101), (0o2001, 0o102), (0o2002, 0o54), (0o2003, 0o103),
        (0o4054, 0o1)] (machine 0 [(.r0, 0o4), (.r1, 0o2000), (.r4, 0o1), (.r5, 0o4000)] [(0o1000, 0o76042)]))
      (fun t => t.reg .r0 == 0o2 && t.reg .r1 == 0o2002 && nzvc t == 0b0000) = true := by decide +kernel
theorem test_spanc :
    after (bytesIn [(0o2000, 0o40), (0o2001, 0o40), (0o2002, 0o130), (0o4040, 0o2),
        (0o4011, 0o2)] (machine 0 [(.r0, 0o3), (.r1, 0o2000), (.r4, 0o2), (.r5, 0o4000)] [(0o1000, 0o76043)]))
      (fun t => t.reg .r0 == 0o1 && t.reg .r1 == 0o2002 && nzvc t == 0b0000) = true := by decide +kernel
theorem test_cmpc :
    after (bytesIn [(0o2000, 0o101), (0o2001, 0o102), (0o2002, 0o103), (0o3000, 0o101), (0o3001, 0o102),
        (0o3002, 0o104)] (machine 0 [(.r0, 0o3), (.r1, 0o2000), (.r2, 0o3), (.r3, 0o3000), (.r4, 0o40)]
        [(0o1000, 0o76044)]))
      (fun t => t.reg .r0 == 0o1 && t.reg .r1 == 0o2002 && t.reg .r2 == 0o1 && t.reg .r3 == 0o3002 &&
          nzvc t == 0b1001) = true := by decide +kernel
theorem test_matc :
    after (bytesIn [(0o2000, 0o110), (0o2001, 0o105), (0o2002, 0o114), (0o2003, 0o114), (0o2004, 0o117),
        (0o3000, 0o114), (0o3001, 0o114)] (machine 0 [(.r0, 0o5), (.r1, 0o2000), (.r2, 0o2), (.r3, 0o3000)]
        [(0o1000, 0o76045)]))
      (fun t => t.reg .r0 == 0o3 && t.reg .r1 == 0o2002 && t.reg .r2 == 0o2 && t.reg .r3 == 0o3000 &&
          nzvc t == 0b0000) = true := by decide +kernel
theorem test_addn :
    after (bytesIn [(0o2000, 0o61), (0o2001, 0o62), (0o2002, 0o163), (0o2010, 0o61), (0o2011, 0o62),
        (0o2012, 0o63)] (machine 0 [(.r0, 0o3), (.r1, 0o2000), (.r2, 0o3), (.r3, 0o2010), (.r4, 0o3), (.r5, 0o2020)]
        [(0o1000, 0o76050)]))
      (fun t => t.reg .r0 == 0 && t.reg .r1 == 0 && t.reg .r2 == 0 && t.reg .r3 == 0 && t.reg .r4 == 0o3 &&
          t.reg .r5 == 0o2020 && nzvc t == 0b0100 &&
          bytesAt t 0o2020 3 == [0o60, 0o60, 0o60]) = true := by decide +kernel
theorem test_cmpn :
    after (bytesIn [(0o2000, 0o161), (0o2010, 0o60)] (machine 0 [(.r0, 0o1), (.r1, 0o2000), (.r2, 0o1),
        (.r3, 0o2010)] [(0o1000, 0o76052)]))
      (fun t => t.reg .r0 == 0 && t.reg .r1 == 0 && t.reg .r2 == 0 && t.reg .r3 == 0 &&
          nzvc t == 0b1000) = true := by decide +kernel
theorem test_cvtnl :
    after (bytesIn [(0o2000, 0o66), (0o2001, 0o65), (0o2002, 0o65), (0o2003, 0o63),
        (0o2004, 0o66)] (machine 0 [(.r0, 0o5), (.r1, 0o2000)] [(0o1000, 0o76053)]))
      (fun t => t.reg .r0 == 0 && t.reg .r1 == 0 && t.reg .r2 == 0o1 && t.reg .r3 == 0 &&
          nzvc t == 0b0000) = true := by decide +kernel
theorem test_cvtpn :
    after (bytesIn [(0o2000, 0o135)] (machine 0 [(.r0, 0o60001), (.r1, 0o2000), (.r2, 0o20003), (.r3, 0o2010)]
        [(0o1000, 0o76054)]))
      (fun t => t.reg .r0 == 0 && t.reg .r1 == 0 && t.reg .r2 == 0o20003 && t.reg .r3 == 0o2010 &&
          nzvc t == 0b1000 && bytesAt t 0o2010 3 == [0o60, 0o60, 0o116]) = true := by decide +kernel
theorem test_cvtnp :
    after (bytesIn [(0o2000, 0o61), (0o2001, 0o62), (0o2002, 0o163)] (machine 0 [(.r0, 0o3), (.r1, 0o2000),
        (.r2, 0o60003), (.r3, 0o2010)] [(0o1000, 0o76055)]))
      (fun t => t.reg .r0 == 0 && t.reg .r1 == 0 && t.reg .r2 == 0o60003 && t.reg .r3 == 0o2010 &&
          nzvc t == 0b1000 && bytesAt t 0o2010 2 == [0o22, 0o75]) = true := by decide +kernel
theorem test_cvtln :
    after (machine 0 [(.r0, 0o40004), (.r1, 0o3000), (.r2, 0), (.r3, 0o173)] [(0o1000, 0o76057)])
      (fun t => t.reg .r2 == 0 && t.reg .r3 == 0 && t.reg .r0 == 0o40004 && t.reg .r1 == 0o3000 &&
          nzvc t == 0b0000 && bytesAt t 0o3000 5 == [0o60, 0o61, 0o62, 0o63, 0o53]) = true := by decide +kernel
theorem test_addp :
    after (bytesIn [(0o2000, 0o231), (0o2001, 0o234), (0o2010, 0o34)] (machine 0 [(.r0, 0o60003), (.r1, 0o2000),
        (.r2, 0o60001), (.r3, 0o2010), (.r4, 0o60003), (.r5, 0o2020)] [(0o1000, 0o76070)]))
      (fun t => t.reg .r0 == 0 && t.reg .r1 == 0 && t.reg .r2 == 0 && t.reg .r3 == 0 && t.reg .r4 == 0o60003 &&
          t.reg .r5 == 0o2020 && nzvc t == 0b0110 && bytesAt t 0o2020 2 == [0, 0o14]) = true := by decide +kernel
theorem test_addpi :
    after (bytesIn [(0o2000, 0o22), (0o2001, 0o74), (0o2010, 0o4), (0o2011, 0o135)] (machine 0 []
        [(0o1000, 0o76170), (0o1002, 0o2100), (0o1004, 0o2104), (0o1006, 0o2110), (0o2100, 0o60003),
        (0o2102, 0o2000), (0o2104, 0o60002), (0o2106, 0o2010), (0o2110, 0o60003), (0o2112, 0o2020)]))
      (fun t => t.reg .r0 == 0 && t.reg .r5 == 0 && t.regs.pc == 0o1010 && nzvc t == 0b0000 &&
          bytesAt t 0o2020 2 == [0o7, 0o214]) = true := by decide +kernel
theorem test_subp :
    after (bytesIn [(0o2000, 0o134), (0o2010, 0o74)] (machine 0 [(.r0, 0o60001), (.r1, 0o2000), (.r2, 0o60001),
        (.r3, 0o2010), (.r4, 0o60001), (.r5, 0o2020)] [(0o1000, 0o76071)]))
      (fun t => t.reg .r0 == 0 && t.reg .r1 == 0 && t.reg .r2 == 0 && t.reg .r3 == 0 && t.reg .r4 == 0o60001 &&
          t.reg .r5 == 0o2020 && nzvc t == 0b1000 && bytesAt t 0o2020 1 == [0o55]) = true := by decide +kernel
theorem test_cmpp :
    after (bytesIn [(0o2000, 0o14), (0o2010, 0o15)] (machine 0 [(.r0, 0o60000), (.r1, 0o2000), (.r2, 0o60001),
        (.r3, 0o2010)] [(0o1000, 0o76072)]))
      (fun t => t.reg .r0 == 0 && t.reg .r1 == 0 && t.reg .r2 == 0 && t.reg .r3 == 0 &&
          nzvc t == 0b0100) = true := by decide +kernel
theorem test_cvtpl :
    after (bytesIn [(0o2000, 0o35)] (machine 0 [(.r0, 0o60001), (.r1, 0o2000)] [(0o1000, 0o76073)]))
      (fun t => t.reg .r0 == 0 && t.reg .r1 == 0 && t.reg .r2 == 0o177777 && t.reg .r3 == 0o177777 &&
          nzvc t == 0b1001) = true := by decide +kernel
theorem test_cvtpli :
    after (bytesIn [(0o2000, 0o22), (0o2001, 0o74)] (machine 0 [] [(0o1000, 0o76173), (0o1002, 0o2100),
        (0o1004, 0o2200), (0o2100, 0o60003), (0o2102, 0o2000)]))
      (fun t => t.reg .r0 == 0 && t.reg .r2 == 0 && t.regs.pc == 0o1006 && t.mem.readWord 0o2200 == 0o173 &&
          t.mem.readWord 0o2202 == 0) = true := by decide +kernel
theorem test_mulp :
    after (bytesIn [(0o2000, 0o1), (0o2001, 0o54), (0o2010, 0o1), (0o2011, 0o55)] (machine 0 [(.r0, 0o60002),
        (.r1, 0o2000), (.r2, 0o60002), (.r3, 0o2010), (.r4, 0o60002), (.r5, 0o2020)] [(0o1000, 0o76074)]))
      (fun t => t.reg .r0 == 0 && t.reg .r1 == 0 && t.reg .r2 == 0 && t.reg .r3 == 0 && t.reg .r4 == 0o60002 &&
          t.reg .r5 == 0o2020 && nzvc t == 0b1010 && bytesAt t 0o2020 2 == [0o4, 0o115]) = true := by decide +kernel
theorem test_divp :
    after (bytesIn [(0o2000, 0o54), (0o2010, 0o175)] (machine 0 [(.r0, 0o60001), (.r1, 0o2000), (.r2, 0o60001),
        (.r3, 0o2010), (.r4, 0o60001), (.r5, 0o2020)] [(0o1000, 0o76075)]))
      (fun t => t.reg .r0 == 0 && t.reg .r1 == 0 && t.reg .r2 == 0 && t.reg .r3 == 0 && t.reg .r4 == 0o60001 &&
          t.reg .r5 == 0o2020 && nzvc t == 0b1000 && bytesAt t 0o2020 1 == [0o75]) = true := by decide +kernel
theorem test_ashp :
    after (bytesIn [(0o2000, 0o1), (0o2001, 0o44), (0o2002, 0o235)] (machine 0 [(.r0, 0o60004), (.r1, 0o2000),
        (.r2, 0o60004), (.r3, 0o2010), (.r4, 0o2776)] [(0o1000, 0o76076)]))
      (fun t => t.reg .r0 == 0 && t.reg .r1 == 0 && t.reg .r4 == 0 && t.reg .r2 == 0o60004 && t.reg .r3 == 0o2010 &&
          nzvc t == 0b1000 && bytesAt t 0o2010 3 == [0, 0o1, 0o55]) = true := by decide +kernel
theorem test_cvtlp :
    after (machine 0 [(.r0, 0o60012), (.r1, 0o3000), (.r2, 0o100000), (.r3, 0)] [(0o1000, 0o76077)])
      (fun t => nzvc t == 0b1000 &&
          bytesAt t 0o3000 6 == [0o2, 0o24, 0o164, 0o203, 0o144, 0o215]) = true := by decide +kernel
theorem test_reserved :
    after (machine 0 [(.sp, 0o770)] [(0o1000, 0o10), (0o10, 0o5000), (0o12, 0)])
      (fun t => t.reg .sp == 0o764 && t.regs.pc == 0o5000 && t.mem.readWord 0o766 == 0 &&
          t.mem.readWord 0o764 == 0o1002) = true := by decide +kernel

/-- R810: power is lost within MOV #1,@#2000. Two cycles fetch the instruction and its source, two more its address and the
store; with three the store is not made. -/
theorem test_power_loss :
    let s (cycles : Nat) : State :=
      { machine 0 [] [(0o1000, 0o012737), (0o1002, 1), (0o1004, 0o2000)] with inputs := [.powerDown cycles] }
    after (s 3) (fun t => t.run == .poweredDown && t.mem.readWord 0o2000 == 0) = true
      ∧ after (s 4) (fun t => t.run == .poweredDown && t.mem.readWord 0o2000 == 1) = true := by decide +kernel

/-- R150: a DMA master writes the operand of TST @#2000 between the fetch of its address and its read, and sees the word
before. -/
theorem test_dma :
    after { machine 0 [] [(0o1000, 0o005737), (0o1002, 0o2000), (0o2000, 5)] with
        bus := { dma := [[], [], [.datio 0o2000 .word 0o100000]], seen := [], left := none } }
      (fun t => nzvc t == 0b1000 && t.bus.seen == [some 5]) = true := by decide +kernel

/-- R753: a character arrives with its overrun status, the buffer being empty. -/
theorem test_overrun :
    after { machine 0 [] [(0o1000, 0o005737), (0o1002, 0o177562)] with inputs := [.receive .console 0o101 false false true] }
      (fun t => nzvc t == 0b1000 && t.slu1.rxDone == false) = true := by decide +kernel

/-- R114: with 18 address lines two addresses 2^18 apart are one place. -/
theorem test_alias :
    placeAt { Config.factory with busWidth := .bits18 } 0o1002000 = placeAt { Config.factory with busWidth := .bits18 } 0o2000
      ∧ placeAt Config.factory 0o1002000 ≠ placeAt Config.factory 0o2000 := by decide

/-- R812: the character being sent when power is lost is lost, the transmitter being ready again, and nothing is sent. -/
theorem test_power_loss_character :
    after { machine 0 [] [] with slu1 := { State.reset.slu1 with txRdy := false, tbuf := 0o101, txTimer := 1 }, inputs := [.powerDown 0] }
      (fun t => t.run == .poweredDown && t.slu1.txRdy && t.slu1.sent == []) = true := by decide +kernel

/-! States and operands that meet the hypotheses of the statements, one theorem for each statement that has hypotheses. -/

/-- An instruction at the PC, in memory. -/
def ready : State := machine 0 [(.sp, 0o770)] [(0o1000, 0o5200)]

/-- A machine with the MMU on and 18-bit mapping: kernel page 0 read/write and of full length, page 1 read-only with blocks
0 to 3, page 2 downward from block 100 (octal), page 7 the I/O page. -/
def mapped : State :=
  { machine 0 [(.r0, 0o2000), (.sp, 0o770)] [(0o1000, 0o5200), (0o2000, 0o3000)] with
    mmu :=
      { kpar := #v[0, 0o200, 0o400, 0, 0, 0, 0, 0o7600],
        kpdr := #v[0o77406, 0o1402, 0o40016, 0, 0, 0, 0, 0o77406],
        upar := Vector.replicate 8 0, updr := Vector.replicate 8 0, sr0 := 1, sr2 := 0, sr3 := 0 } }

/-- R250, spec/30_encoding.md R214: a byte immediate is the low byte of its word, also at an odd PC. TSTB #200 at 1001. -/
theorem test_byte_immediate_odd :
    after (machine 0 [(.pc, 0o1001)] [(0o1000, 0o105727), (0o1002, 0o200)])
      (fun t => nzvc t == 8 && t.regs.pc == 0o1005) = true := by decide +kernel

/-- The PC stacked after a fetch that times out has advanced (spec/60_exceptions.md R705); after one the memory management unit
aborts it has not (spec/00_scope.md R14). -/
theorem test_failed_fetch_pc :
    after (machine 0 [(.pc, 0o160000), (.sp, 0o770)] []) (fun t => t.mem.readWord 0o764 == 0o160002) = true
      ∧ after { mapped with regs := { mapped.regs with pc := 0o60000 } } (fun t => t.mem.readWord 0o764 == 0o60000) = true := by
  decide +kernel

/-- R484, R552, R527: the PC is at an immediate word of LDF, LDCIF (long) and STST that the memory management unit will not let
be referenced; the PC stacked has not stepped past it. -/
theorem test_long_immediate_pc :
    [0o172427, 0o177027, 0o170327].all (fun (w : Word) =>
      after { mapped with
          regs := { mapped.regs with pc := 0o17776 }, fpp := { mapped.fpp with fps := 0o100 }
          mem := wordsIn mapped.mem [(0o17776, w)]
          mmu := { mapped.mmu with kpdr := #v[0o77406, 0, 0, 0, 0, 0, 0, 0o77406] } }
        (fun t => t.mem.readWord 0o764 == 0o20000)) = true := by
  decide +kernel

theorem witness_DecodeOfEncode : (Instr.mov ⟨.autoinc, .pc⟩ ⟨.index, .sp⟩).wellFormed = true
    ∧ (Instr.clearCodes 3).wellFormed = true ∧ (Instr.reserved 0o107777).wellFormed = true := by decide

/-- Both ways to a fetch: past the service state, and after a P command. -/
theorem witness_StepRunsDecoded :
    (∃ u m i, fetchesFrom ready u ∧ translate u.mode u.regs.pc false u = .ok m u ∧ plainMemory u m.pa = true
      ∧ decode [u.granted.mem.read (wordPlace u m.pa), u.granted.mem.read (wordPlace u m.pa + 1)] = .ok (i, []))
      ∧ ∃ s u m i, s.pend.proceed = true ∧ fetchesFrom s u ∧ translate u.mode u.regs.pc false u = .ok m u
        ∧ plainMemory u m.pa = true
        ∧ decode [u.granted.mem.read (wordPlace u m.pa), u.granted.mem.read (wordPlace u m.pa + 1)] = .ok (i, []) :=
  ⟨⟨_, _, _, ⟨Or.inl (by decide), Or.inl rfl, rfl, Or.inr ⟨rfl, rfl⟩⟩, rfl, rfl, rfl⟩,
   { ready with pend := { ready.pend with proceed := true } }, _, _, _, rfl,
   ⟨Or.inl (by decide), Or.inl rfl, rfl, Or.inl ⟨rfl, rfl⟩⟩, rfl, rfl, rfl⟩

/-- A step on either side of the one stop. -/
theorem witness_NothingStops : (∃ t, step ready = .next t) ∧ step { ready with run := .poweredDown } = .fault .poweredDown
    ∧ ∃ t, step { ready with run := .poweredDown, inputs := [.powerUp] } = .next t :=
  ⟨⟨_, rfl⟩, rfl, _, rfl⟩

theorem witness_StepKeepsSound : ready.sound = true ∧ ∃ t, step ready = .next t := ⟨by decide +kernel, _, rfl⟩

theorem witness_StepKeepsConfigAndChannels : ready.slu1.requestsJustified = true ∧ ready.slu2.requestsJustified = true
    ∧ ∃ t, step ready = .next t := ⟨rfl, rfl, _, rfl⟩

/-- Every mode, a byte through R6 at the stack limit, and an index; a register and memory, word and byte. -/
theorem witness_OperandForms :
    (∃ a u, readReg .sp (machine 0 [(.sp, 0o400)] []) = .ok a u)
      ∧ (∃ p t, readWord 0o2000 ((machine 0 [(.r1, 0o2000)] [(0o2000, 0o3000)]).withReg .r1 0o2002) = .ok p t)
      ∧ (∃ q v x b p t, fetchWord (machine 0 [(.r1, 0o2000)] [(0o1000, 0o10), (0o2010, 0o3000)]) = .ok x q
        ∧ readReg .r1 q = .ok b v ∧ readWord (b + x) v = .ok p t)
      ∧ (∃ t v u, evalField 2 ⟨.register, .sp⟩ ready = .ok (.reg .sp) t ∧ readLoc (.reg .sp) t = .ok v u)
      ∧ (∃ ea t v u, evalField 2 ⟨.autoinc, .pc⟩ ready = .ok (.mem ea) t ∧ readWord ea t = .ok v u)
      ∧ (∃ t, evalField 1 ⟨.register, .r1⟩ ready = .ok (.reg .r1) t)
      ∧ ∃ ea t v u, evalField 1 ⟨.autodec, .sp⟩ ready = .ok (.mem ea) t ∧ readByte ea t = .ok v u :=
  ⟨⟨_, _, rfl⟩, ⟨_, _, rfl⟩, ⟨_, _, _, _, _, _, rfl, rfl, rfl⟩, ⟨_, _, _, rfl, rfl⟩, ⟨_, _, _, _, rfl, rfl⟩, ⟨_, rfl⟩,
   _, _, _, _, rfl, rfl⟩

theorem witness_OperandFrame : mapped.quiet = true
    ∧ ∃ l t, evalField 2 ⟨.autoincDeferred, .r0⟩ mapped = .ok l t ∧ ∃ w u, readLoc l t = .ok w u :=
  ⟨rfl, _, _, rfl, _, _, rfl⟩

/-- An even and an odd address, without and with relocation, the bus being granted, and a DMA master having had it. -/
theorem witness_LoadFromMemory :
    (∃ g m, busGrant ready = .ok ⟨⟩ g ∧ translate .kernel 0o1000 false ready = .ok m ready ∧ plainMemory ready m.pa = true)
      ∧ (∃ m, translate .kernel 0o157777 false ready = .ok m ready ∧ plainMemory ready m.pa = true)
      ∧ (∃ g m, busGrant mapped = .ok ⟨⟩ g ∧ translate .kernel 0o20003 false mapped = .ok m mapped
        ∧ plainMemory mapped m.pa = true)
      ∧ (∃ s g, s.bus.dma = [[.dato 0 .word 1]] ∧ busGrant s = .ok ⟨⟩ g ∧ g.mem.read 0 = 1)
      ∧ (0o1000 : Word).getLsbD 0 = false ∧ ∃ w, readWord 0o1001 ready = .ok w ready :=
  ⟨⟨_, _, rfl, rfl, rfl⟩, ⟨_, rfl, rfl⟩, ⟨_, _, rfl, rfl, rfl⟩,
   ⟨{ ready with bus := { dma := [[.dato 0 .word 1]], seen := [], left := none } }, _, rfl, rfl, rfl⟩, by decide, _, rfl⟩

/-- With and without relocation, at an even and an odd address; an operand rewritten, word and byte. -/
theorem witness_StoreToMemory : mapped.mem.wf = true ∧ ready.mem.wf = true
    ∧ (∃ g m, busGrant ready = .ok ⟨⟩ g ∧ translate .kernel 0 true ready = .ok m ready ∧ plainMemory ready m.pa = true)
    ∧ (∃ g m, busGrant mapped = .ok ⟨⟩ g ∧ translate .kernel 0o17777 true mapped = .ok m mapped
      ∧ plainMemory mapped m.pa = true)
    ∧ (∃ t, rewritesWord (.mem 0o1000) ready 0o5200 5 false t)
    ∧ ∃ t, rewritesByte (.mem 0o2001) mapped 0o6 5 false t :=
  ⟨by decide, by decide, ⟨_, _, rfl, rfl, rfl⟩, ⟨_, _, rfl, rfl, rfl⟩, ⟨_, _, _, _, rfl, rfl, rfl, rfl⟩,
   _, _, _, _, _, rfl, rfl, rfl, rfl, rfl⟩

/-- A quiet bus and a granted one; the last word of memory and what is beyond; cycles as an input. -/
theorem witness_DmaTurn : ready.quiet = true ∧ ready.bus.left ≠ some 0 ∧ ready.mem.wf = true
    ∧ (isIoPage 0o17757776 = false ∧ populated ready.cfg (wordPlace ready 0o17757776) = true) ∧ isIoPage 0o17760000 = true
    ∧ ({ ready with inputs := [.dma [.dati 0]] } : State).inputs = [.dma [.dati 0]] := by decide +kernel

/-- The bus granted with the MMU disabled, the board there, and the last word of the ROM window. -/
theorem witness_SpecialRegisters : (∃ g, busGrant ready = .ok ⟨⟩ g) ∧ ready.mmu.sr0.getLsbD 0 = false
    ∧ ready.cfg.bdkDisable = false ∧ 255 < 256 := ⟨⟨_, rfl⟩, rfl, rfl, by decide⟩

/-- Both sides of the I/O page boundary without relocation, and both mappings with it. -/
theorem witness_Relocation :
    (∃ m, translate .kernel 0o157777 false ready = .ok m ready) ∧ (∃ m, translate .kernel 0o160000 false ready = .ok m ready)
      ∧ (∃ m, translate .kernel 0o20000 false mapped = .ok m mapped)
      ∧ (∃ m, translate .kernel 0o160000 false mapped = .ok m mapped)
      ∧ ∃ m, translate .kernel 0o20000 false { mapped with mmu := { mapped.mmu with sr3 := 0o20 } }
        = .ok m { mapped with mmu := { mapped.mmu with sr3 := 0o20 } } :=
  ⟨⟨_, rfl⟩, ⟨_, rfl⟩, ⟨_, rfl⟩, ⟨_, rfl⟩, _, rfl⟩

/-- Relocation is on; the last block of an upward page and the first of a downward one are there. Beyond an upward page,
before a downward one, a write to a read-only page, a nonresident page, a mode without pages. -/
theorem witness_MmuAborts :
    (mapped.mmu.sr0.getLsbD 0 = true
    ∧ (∃ m, translate .kernel 0o20377 false mapped = .ok m mapped)
    ∧ ∃ m, translate .kernel 0o50000 false mapped = .ok m mapped)
      ∧ (∃ e t, translate .kernel 0o20400 false mapped = .error e t) ∧ (∃ e t, translate .kernel 0o47777 false mapped = .error e t)
      ∧ (∃ e t, translate .kernel 0o20000 true mapped = .error e t) ∧ (∃ e t, translate .user 0 false mapped = .error e t)
      ∧ (∃ e t, translate .illegal 0 false mapped = .error e t)
      ∧ (∃ s e t, s.mmu.sr0 &&& 0o160000 ≠ 0 ∧ translate .kernel 0o60000 false s = .error e t)
      ∧ (1 : Fin 8).val = (0o20400 : Word).toNat / 8192 :=
  ⟨⟨by decide, ⟨_, rfl⟩, _, rfl⟩,
   ⟨_, _, rfl⟩, ⟨_, _, rfl⟩, ⟨_, _, rfl⟩, ⟨_, _, rfl⟩, ⟨_, _, rfl⟩,
   ⟨{ mapped with mmu := { mapped.mmu with sr0 := 0o40001 } }, _, _, by decide, rfl⟩, by decide⟩

/-- Above the limit, and the first push below it. -/
theorem witness_StackOperations :
    (∃ sp u w t, readReg .sp ready = .ok sp u ∧ readWord sp u = .ok w t)
      ∧ (∃ p t, writeWord 0o400 5 ((machine 0 [(.sp, 0o402)] []).withReg .sp 0o400) = .ok p t)
      ∧ ∃ p t, writeWord 0o376 5
          { (machine 0 [(.sp, 0o400)] []).withReg .sp 0o376 with pend := { ready.pend with stkovf := true } } = .ok p t :=
  ⟨⟨_, _, _, _, rfl, rfl⟩, ⟨_, _, rfl⟩, _, _, rfl⟩

/-- A machine with relocation on, a vector at 14 for user mode, and user page 0 elsewhere than kernel page 0. -/
def relocated : State :=
  { mapped with
    regs := { mapped.regs with usp := 0o1000 }
    mem := wordsIn mapped.mem [(0o14, 0o3014), (0o16, 0o140000)]
    mmu := { mapped.mmu with
      upar := Vector.replicate 8 0o1000, updr := #v[0o77406, 0, 0, 0, 0, 0, 0, 0] } }

/-- With relocation, from kernel to user mode; without, from user mode to a kernel stack that ends at address 0. -/
theorem witness_TrapSequence :
    (∃ m0 m1 m2 m3,
      (relocated.mem.wf = true ∧ relocated.quiet = true
        ∧ psMode (relocated.mem.readWord (wordPlace relocated m0.pa)) = .user ∧ spCell relocated.regs .user = 0o1000)
      ∧ translate .kernel (0o14 + 2) false relocated = .ok m0 relocated
      ∧ translate .user (0o1000 - 2) true relocated = .ok m1 relocated
      ∧ translate .user (0o1000 - 4) true relocated = .ok m2 relocated
      ∧ translate .kernel 0o14 false relocated = .ok m3 relocated
      ∧ (∀ m ∈ [m0, m1, m2, m3], plainMemory relocated m.pa = true) ∧ m1.page = some (.user, 0))
      ∧ ∃ s m0 m1 m2 m3,
        (s.mem.wf = true ∧ s.quiet = true ∧ psMode (s.mem.readWord (wordPlace s m0.pa)) = .kernel
          ∧ spCell s.regs .kernel = 4)
        ∧ translate .kernel (0o14 + 2) false s = .ok m0 s ∧ translate .kernel (4 - 2) true s = .ok m1 s
        ∧ translate .kernel (4 - 4) true s = .ok m2 s ∧ translate .kernel 0o14 false s = .ok m3 s
        ∧ (∀ m ∈ [m0, m1, m2, m3], plainMemory s m.pa = true) :=
  ⟨⟨_, _, _, _, by decide +kernel, rfl, rfl, rfl, rfl, by decide +kernel, rfl⟩,
   { machine 0o140017 [(.sp, 0o600)] [(0o14, 0o3014), (0o16, 0o340)] with
      regs := { State.reset.regs with ksp := 4, usp := 0o600, pc := 0o1000 } },
   _, _, _, _, by decide +kernel, rfl, rfl, rfl, rfl, by decide +kernel⟩

/-- The first word of a vector in a nonresident page; the first push there, and the second; the other word of the vector bad;
a whole sequence. -/
theorem witness_TrapSequence_aborts :
    (∃ s t : State, readWordIn .kernel 0o16 { s with run := .running } = .error (.abort .mmu) t)
      ∧ (∃ s a t : State, readWordIn .kernel 0o16 { s with run := .running } = .ok 0o140000 a
        ∧ trapPushes .ordinary a.ps (trapLoaded .ordinary 0o140000 a) (.error (.abort .mmu) t))
      ∧ (∃ (s a : State) (p : Bool) (d t : State), readWordIn .kernel 0o16 { s with run := .running } = .ok 0o140000 a
        ∧ trapPushes .ordinary a.ps (trapLoaded .ordinary 0o140000 a) (.ok p d)
        ∧ trapPushes .ordinary a.regs.pc d (.error (.abort .mmu) t))
      ∧ (∃ (s a : State) (p : Bool) (d : State) (q : Bool) (e t : State),
        readWordIn .kernel 0o16 { s with run := .running } = .ok 0o140000 a
          ∧ trapPushes .ordinary a.ps (trapLoaded .ordinary 0o140000 a) (.ok p d) ∧ trapPushes .ordinary a.regs.pc d (.ok q e)
          ∧ readWordIn .kernel 0o14 e = .error (.abort .parity) t)
      ∧ ∃ (s a : State) (p : Bool) (d : State) (q : Bool) (e t : State),
        readWordIn .kernel 0o16 { s with run := .running } = .ok 0o140000 a
          ∧ trapPushes .ordinary a.ps (trapLoaded .ordinary 0o140000 a) (.ok p d) ∧ trapPushes .ordinary a.regs.pc d (.ok q e)
          ∧ readWordIn .kernel 0o14 e = .ok 0o3014 t :=
  ⟨⟨{ relocated with mmu := { relocated.mmu with kpdr := Vector.replicate 8 0 } }, _, rfl⟩,
   ⟨{ relocated with regs := { relocated.regs with usp := 0o20004 } }, _, _, rfl, _, _, rfl, rfl⟩,
   ⟨{ relocated with regs := { relocated.regs with usp := 2 } }, _, _, _, _, rfl, ⟨_, _, rfl, rfl⟩, _, _, rfl, rfl⟩,
   ⟨{ relocated with cfg := { Config.factory with parityBad := [0o14] } }, _, _, _, _, _, _, rfl, ⟨_, _, rfl, rfl⟩,
    ⟨_, _, rfl, rfl⟩, rfl⟩,
   relocated, _, _, _, _, _, _, rfl, ⟨_, _, rfl, rfl⟩, ⟨_, _, rfl, rfl⟩, rfl⟩

/-- HALT outside kernel mode and with `HALT_TRAP`; a machine without options. -/
theorem witness_InstructionTraps : (machine 0o140000 [] []).mode ≠ .kernel
    ∧ ({ ready with cfg := { Config.factory with haltTrap := true } } : State).lines.bpok = true
    ∧ ({ Config.factory with fpPresent := false, cisPresent := false } : Config).fpPresent = false := by decide

/-- In kernel and in user mode. -/
theorem witness_ReturnFromTrap :
    (∃ s pc ps u t, s.mode = .kernel ∧ pop s = .ok pc u ∧ pop u = .ok ps t)
      ∧ ∃ s pc ps u t, s.mode = .user ∧ pop s = .ok pc u ∧ pop u = .ok ps t :=
  ⟨⟨machine 0 [(.sp, 0o764)] [(0o764, 0o2000), (0o766, 0o140357)], _, _, _, _, by decide, rfl, rfl⟩,
   machine 0o140017 [(.sp, 0o764)] [(0o764, 0o2000), (0o766, 0o345)], _, _, _, _, by decide, rfl, rfl⟩

/-- A fetch beyond memory, and one in a nonresident page, and such a store at the PC; pointers beyond it, in a nonresident
page, in a bad word; an operand, word and byte, that cannot be read, written or rewritten; the source of a double-operand
instruction read and its destination not; a push and each pop. -/
theorem witness_OperandAbort :
    ((∃ s f u, fetchesFrom s f ∧ fetchWord f = .error (.abort .timeout) u)
        ∧ (∃ s f u, fetchesFrom s f ∧ fetchWord f = .error (.abort .mmu) u)
        ∧ ∃ v u, storeNext 5 v = .error (.abort .mmu) u)
      ∧ (∃ u, evalField 2 ⟨.autoincDeferred, .r0⟩ (machine 0 [(.r0, 0o160000)] []) = .error (.abort .timeout) u)
      ∧ (∃ u, evalField 1 ⟨.autodecDeferred, .r0⟩ (machine 0 [(.r0, 0o160002)] []) = .error (.abort .timeout) u)
      ∧ (∃ u, evalField 2 ⟨.indexDeferred, .pc⟩ { mapped with regs := { mapped.regs with pc := 0o60000 } }
          = .error (.abort .mmu) u)
      ∧ (∃ s u, evalField 1 ⟨.autoincDeferred, .r0⟩ s = .error (.abort .parity) u)
      ∧ (∃ l s1 u, evalField 2 ⟨.autoinc, .r0⟩ (machine 0 [(.r0, 0o160000)] []) = .ok l s1
        ∧ readLoc l s1 = .error (.abort .timeout) u ∧ writeLoc l 0 s1 = .error (.abort .timeout) u)
      ∧ (∃ l s1 u, evalField 1 ⟨.registerDeferred, .r0⟩ (machine 0 [(.r0, 0o160001)] []) = .ok l s1
        ∧ readLocByte l s1 = .error (.abort .timeout) u ∧ writeLocByte l 0 s1 = .error (.abort .timeout) u)
      ∧ (∃ u, translate .kernel 0o20000 true mapped = .error (.abort .mmu) u)
      ∧ (∃ s m g u, translate .kernel 0o2000 true s = .ok m s ∧ busGrant s = .ok ⟨⟩ g
        ∧ readCycle m.pa g = .error (.abort .parity) u)
      ∧ (∃ x s1 l s2 v s3 u, sourceWord ⟨.autoinc, .r1⟩ (machine 0 [(.r1, 0o1000), (.r0, 0o160000)] []) = .ok x s1
        ∧ evalField 2 ⟨.registerDeferred, .r0⟩ s1 = .ok l s2 ∧ x.word s2 = .ok v s3
        ∧ writeLoc l v s3 = .error (.abort .timeout) u)
      ∧ (∃ u, push 5 (machine 0 [(.sp, 0o160002)] []) = .error (.abort .timeout) u)
      ∧ (∃ u, readWordIn .user 0o60000 mapped = .error (.abort .mmu) u)
      ∧ (∃ s1 sp s2 s3 link s4 u, evalField 2 ⟨.registerDeferred, .r0⟩ (machine 0 [(.sp, 0o160002)] []) = .ok (.mem 0) s1
        ∧ readReg .sp s1 = .ok sp s2 ∧ noteStackLimit (sp - 2) (s2.withReg .sp (sp - 2)) = .ok ⟨⟩ s3
        ∧ readReg .r5 s3 = .ok link s4 ∧ writeWord (sp - 2) link s4 = .error (.abort .timeout) u)
      ∧ (∃ u, pop (machine 0 [(.sp, 0o160000)] []) = .error (.abort .timeout) u)
      ∧ ∃ pc s1 u, pop (machine 0 [(.sp, 0o157776)] []) = .ok pc s1 ∧ pop s1 = .error (.abort .timeout) u :=
  ⟨⟨⟨machine 0 [(.pc, 0o160000)] [], _, _, ⟨Or.inl (by decide), Or.inl rfl, rfl, Or.inr ⟨rfl, rfl⟩⟩, rfl⟩,
    ⟨{ mapped with regs := { mapped.regs with pc := 0o60000 } }, _, _,
     ⟨Or.inl (by decide), Or.inl rfl, rfl, Or.inr ⟨rfl, rfl⟩⟩, rfl⟩,
    mapped.withReg .pc 0o60000, _, rfl⟩,
   ⟨_, rfl⟩, ⟨_, rfl⟩, ⟨_, rfl⟩,
   ⟨{ machine 0 [(.r0, 0o2000)] [] with cfg := { Config.factory with parityBad := [0o2000] } }, _, rfl⟩,
   ⟨_, _, _, rfl, rfl, rfl⟩, ⟨_, _, _, rfl, rfl, rfl⟩, ⟨_, rfl⟩,
   ⟨{ machine 0 [] [] with cfg := { Config.factory with parityBad := [0o2000] } }, _, _, _, rfl, rfl, rfl⟩,
   ⟨_, _, _, _, _, _, _, rfl, rfl, rfl, rfl⟩, ⟨_, rfl⟩, ⟨_, rfl⟩, ⟨_, _, _, _, _, _, _, rfl, rfl, rfl, rfl, rfl⟩,
   ⟨_, rfl⟩, _, _, _, rfl, rfl⟩

/-- R0 points where nothing answers, and R6 at the last word of memory. -/
def astray : State := machine 0 [(.r0, 0o160000), (.r1, 0o2000), (.r2, 2), (.r3, 0o2010), (.sp, 0o157776)] []

/-- The clauses of the same statement that follow a first operand or a pop: destination fields, reads, writes and rewrites; MFPI
of a register and MFPI and MTPI in the previous space; RTS and MARK. -/
theorem witness_OperandAbort_forms :
    (∃ x s1 u, sourceWord ⟨.register, .r1⟩ astray = .ok x s1
      ∧ evalField 2 ⟨.autoincDeferred, .r0⟩ s1 = .error (.abort .timeout) u)
      ∧ (∃ x s1 u, sourceByte ⟨.register, .r1⟩ astray = .ok x s1
        ∧ evalField 1 ⟨.autoincDeferred, .r0⟩ s1 = .error (.abort .timeout) u)
      ∧ (∃ x s1 l s2 v s3 u, sourceWord ⟨.register, .r1⟩ astray = .ok x s1
        ∧ evalField 2 ⟨.registerDeferred, .r0⟩ s1 = .ok l s2 ∧ x.word s2 = .ok v s3
        ∧ readLoc l s3 = .error (.abort .timeout) u)
      ∧ (∃ x s1 l s2 v s3 u, sourceByte ⟨.register, .r1⟩ astray = .ok x s1
        ∧ evalField 1 ⟨.registerDeferred, .r0⟩ s1 = .ok l s2 ∧ x.byte s2 = .ok v s3
        ∧ readLocByte l s3 = .error (.abort .timeout) u ∧ writeLocByte l v s3 = .error (.abort .timeout) u)
      ∧ (∃ s x s1 s2 v s3 w s4 u, sourceWord ⟨.register, .r1⟩ s = .ok x s1
        ∧ evalField 2 ⟨.registerDeferred, .r0⟩ s1 = .ok (.mem 0o20000) s2 ∧ x.word s2 = .ok v s3
        ∧ readReg .r1 s3 = .ok w s4 ∧ translate s4.mode 0o20000 true s4 = .error (.abort .mmu) u)
      ∧ (∃ s x s1 s2 v s3 u, sourceByte ⟨.register, .r1⟩ s = .ok x s1
        ∧ evalField 1 ⟨.registerDeferred, .r0⟩ s1 = .ok (.mem 0o20001) s2 ∧ x.byte s2 = .ok v s3
        ∧ translate s3.mode 0o20001 true s3 = .error (.abort .mmu) u)
      ∧ (∃ u, writeLoc (.mem 0o160000) (if astray.ps.getLsbD 3 then 0o177777 else 0) astray = .error (.abort .timeout) u)
      ∧ (∃ u, writeLocByte (.mem 0o160000) (astray.ps.extractLsb' 0 8) astray = .error (.abort .timeout) u)
      ∧ (∃ s1 u, evalField 2 ⟨.registerDeferred, .r0⟩ astray = .ok (.mem 0o160000) s1
        ∧ readWordIn (psPrevious astray.ps) 0o160000 s1 = .error (.abort .timeout) u)
      ∧ (∃ s s1 v s2 u, evalField 2 ⟨.registerDeferred, .r1⟩ s = .ok (.mem 0o2000) s1
        ∧ readWordIn (psPrevious s.ps) 0o2000 s1 = .ok v s2 ∧ push v s2 = .error (.abort .timeout) u)
      ∧ (∃ v s1 u, pop astray = .ok v s1 ∧ evalField 2 ⟨.autoincDeferred, .r0⟩ s1 = .error (.abort .timeout) u)
      ∧ (∃ v s1 s2 u, pop astray = .ok v s1 ∧ evalField 2 ⟨.registerDeferred, .r0⟩ s1 = .ok (.mem 0o160000) s2
        ∧ writeWordIn (psPrevious astray.ps) 0o160000 v s2 = .error (.abort .timeout) u)
      ∧ (∃ s x s1 u, readReg .r1 s = .ok x s1
        ∧ pop { s1 with regs := { s1.regs with pc := x } } = .error (.abort .timeout) u)
      ∧ (∃ (s : State) (nn : BitVec 6) (u : State), (let t := s.withReg .sp (s.regs.pc + BitVec.ofNat 16 (2 * nn.toNat))
         pop { t with regs := { t.regs with pc := s.regs.r5 } }) = .error (.abort .timeout) u)
      ∧ ∃ s s1 v s2 u, evalField 2 ⟨.register, .r1⟩ s = .ok (.reg .r1) s1 ∧ readReg .r1 s1 = .ok v s2
        ∧ push v s2 = .error (.abort .timeout) u :=
  ⟨⟨_, _, _, rfl, rfl⟩, ⟨_, _, _, rfl, rfl⟩, ⟨_, _, _, _, _, _, _, rfl, rfl, rfl, rfl⟩,
   ⟨_, _, _, _, _, _, _, rfl, rfl, rfl, rfl, rfl⟩,
   ⟨mapped.withReg .r0 0o20000, _, _, _, _, _, _, _, _, rfl, rfl, rfl, rfl, rfl⟩,
   ⟨mapped.withReg .r0 0o20001, _, _, _, _, _, _, rfl, rfl, rfl, rfl⟩, ⟨_, rfl⟩, ⟨_, rfl⟩, ⟨_, _, rfl, rfl⟩,
   ⟨astray.withReg .sp 0o160002, _, _, _, _, rfl, rfl, rfl⟩, ⟨_, _, _, rfl, rfl⟩, ⟨_, _, _, _, rfl, rfl, rfl⟩,
   ⟨astray.withReg .sp 0o160000, _, _, _, rfl, rfl⟩, ⟨astray.withReg .pc 0o160000, 0, _, rfl⟩,
   astray.withReg .sp 0o160002, _, _, _, _, rfl, rfl, rfl⟩

/-- The floating clauses: a field, an integer, a status word, a value, read, written and written back, in both formats. -/
theorem witness_OperandAbort_floating :
    (astray.cfg.fpPresent = true ∧ fpModes astray.fpp.fps = fpModes 0)
      ∧ (∃ u, fpAddress 4 ⟨.autoincDeferred, .r0⟩ astray = .error (.abort .timeout) u)
      ∧ (∃ u, fpAddress 8 ⟨.autoincDeferred, .r0⟩ astray = .error (.abort .timeout) u)
      ∧ (∃ u, longLoc ⟨.autoincDeferred, .r0⟩ astray = .error (.abort .timeout) u)
      ∧ (∃ u, operandWord ⟨.autoinc, .r0⟩ astray = .error (.abort .timeout) u)
      ∧ (∃ u, readInteger (fpModes 0) ⟨.autoinc, .r0⟩ astray = .error (.abort .timeout) u)
      ∧ (∃ u, writeInteger (fpModes 0) ⟨.autoinc, .r0⟩ 0 astray = .error (.abort .timeout) u)
      ∧ (∃ l s1 u, evalField 2 ⟨.autoinc, .r0⟩ astray = .ok l s1 ∧ writeLoc l astray.fpp.fps s1 = .error (.abort .timeout) u
        ∧ writeLoc l (BitVec.ofInt 16 (-0o200)) s1 = .error (.abort .timeout) u)
      ∧ (∃ l s1 u, longLoc ⟨.autoinc, .r0⟩ astray = .ok l s1
        ∧ writeLong (astray.fpp.fec.setWidth 16) astray.fpp.fea l s1 = .error (.abort .timeout) u)
      ∧ (∃ u, fpSource .f ⟨.autoinc, .r0⟩ astray = .error (.abort .timeout) u)
      ∧ (∃ u, fpSource .d ⟨.autoinc, .r0⟩ astray = .error (.abort .timeout) u)
      ∧ (∃ l s1 u, fpOperandAt .f ⟨.autoinc, .r0⟩ astray l s1 ∧ writeFp .f 0 l s1 = .error (.abort .timeout) u
        ∧ writeFp .f (accRead .f 0 astray) l s1 = .error (.abort .timeout) u)
      ∧ (∃ s l v s2 u, fpSourceAt .f ⟨.registerDeferred, .r0⟩ s l v s2 ∧ writeFp .f 0 l s2 = .error (.abort .mmu) u)
      ∧ ∃ l s1 u, fpOperandAt .d ⟨.autoinc, .r0⟩ astray l s1
        ∧ writeFp .d (fpConvert (fpModes 0) .f 0).value l s1 = .error (.abort .timeout) u :=
  ⟨⟨rfl, rfl⟩, ⟨_, rfl⟩, ⟨_, rfl⟩, ⟨_, rfl⟩, ⟨_, rfl⟩, ⟨_, rfl⟩, ⟨_, rfl⟩, ⟨_, _, _, rfl, rfl, rfl⟩, ⟨_, _, _, rfl, rfl⟩,
   ⟨_, rfl⟩, ⟨_, rfl⟩,
   ⟨_, _, _, (rfl : fpAddress 4 ⟨.autoinc, .r0⟩ astray = _), rfl, rfl⟩,
   ⟨mapped.withReg .r0 0o20000, _, _, _, _,
    (rfl : fpSource .f ⟨.registerDeferred, .r0⟩ (mapped.withReg .r0 0o20000) = _), rfl⟩,
   _, _, _, (rfl : fpAddress 8 ⟨.autoinc, .r0⟩ astray = _), rfl⟩

/-- The stack in memory; R6 at 160004, where the first push of a trap through 14 is not answered, and at 172302, where the
second is not; then a step with the emergency due. -/
theorem witness_EmergencyStack :
    (let s := machine 0 [] [(4, 0o4000), (6, 0o340)]
     s.mem.wf = true ∧ s.quiet = true ∧ s.mmu.sr0.getLsbD 0 = false ∧ psMode (s.mem.readWord (wordPlace s 6)) ≠ .illegal
      ∧ plainMemory s 0 = true ∧ plainMemory s 2 = true ∧ plainMemory s 4 = true ∧ plainMemory s 6 = true)
      ∧ (∃ s a t : State, readWordIn .kernel 0o16 { s with run := .running } = .ok 0o340 a
        ∧ trapPushes .ordinary a.ps (trapLoaded .ordinary 0o340 a) (.error (.abort .timeout) t))
      ∧ (∃ (s a : State) (p : Bool) (d t : State), readWordIn .kernel 0o16 { s with run := .running } = .ok 0o340 a
        ∧ trapPushes .ordinary a.ps (trapLoaded .ordinary 0o340 a) (.ok p d)
        ∧ trapPushes .ordinary a.regs.pc d (.error (.abort .timeout) t))
      ∧ ∃ (s : State) (req : TrapRequest), s.run ≠ .poweredDown ∧ (tick s).run = .running ∧ (tick s).pend.trap = some req :=
  ⟨by decide +kernel,
   ⟨machine 0 [(.sp, 0o160004)] [(0o14, 0o3014), (0o16, 0o340)], _, _, rfl, _, _, rfl, rfl⟩,
   ⟨machine 0 [(.sp, 0o172302)] [(0o14, 0o3014), (0o16, 0o340)], _, _, _, _, rfl, ⟨_, _, rfl, rfl⟩, _, _, rfl, rfl⟩,
   { ready with pend := { ready.pend with trap := some { vector := 4, kind := .emergency } } }, _, by decide, rfl, rfl⟩

/-- Each condition of the service state, the highest and the lowest level just above the priority, and none, also in a WAIT or
with a halt request; a request without a vector. -/
theorem witness_ServiceState :
    (∃ s : State, s.pend.trace = true) ∧ (∃ s : State, s.pend.trace = false ∧ s.pend.stkovf = true)
      ∧ (∃ s : State, s.pend.trace = false ∧ s.pend.stkovf = false ∧ s.pend.pwrdwn = true)
      ∧ (∃ s r rest v, s.pend = ready.pend ∧ requestsAt s 7 = r :: rest ∧ s.ps.toNat / 32 % 8 = 6
        ∧ requestVector s.cfg r = some v)
      ∧ (∃ s r rest v, s.pend = ready.pend ∧ requestsAt s 4 = r :: rest
        ∧ (requestsAt s 5 = [] ∧ requestsAt s 6 = [] ∧ requestsAt s 7 = []) ∧ s.ps.toNat / 32 % 8 = 3
        ∧ requestVector s.cfg r = some v)
      ∧ ∃ s : State, s.pend = ready.pend ∧ (requestsAt s 5 = [] ∧ requestsAt s 6 = [] ∧ requestsAt s 7 = [])
        ∧ s.ps.toNat / 32 % 8 = 4 ∧ s.lines.bhalt = false ∧ s.lines.breakHalt = false ∧ s.run = .running
        ∧ { s with run := .waiting }.pend = ready.pend ∧ { s with lines := { s.lines with breakHalt := true } }.pend = ready.pend
        ∧ requestVector s.cfg (.bus { level := 4, vector := none }) = none ∧ (0o774 : BitVec 9).toNat % 4 = 0 :=
  ⟨⟨{ ready with pend := { ready.pend with trace := true } }, rfl⟩,
   ⟨{ ready with pend := { ready.pend with stkovf := true } }, rfl, rfl⟩,
   ⟨{ ready with pend := { ready.pend with pwrdwn := true } }, rfl, rfl, rfl⟩,
   ⟨{ ready with ps := 0o300, lines := { ready.lines with requests := [{ level := 7, vector := some 0o400 }] } },
    _, _, _, rfl, rfl, rfl, rfl⟩,
   ⟨{ ready with ps := 0o140, slu1 := { ready.slu1 with rxReq := true } }, _, _, _, rfl, rfl, ⟨rfl, rfl, rfl⟩, rfl, rfl⟩,
   { ready with ps := 0o200, slu1 := { ready.slu1 with rxReq := true } }, rfl, ⟨rfl, rfl, rfl⟩, rfl, rfl, rfl, rfl, rfl, rfl,
   rfl, rfl⟩

/-- A register with every word, and a memory word, rewritten to any word. -/
theorem witness_SingleOperandWord :
    (∀ d : Word, ∃ s l s1, evalField 2 ⟨.register, .r0⟩ s = .ok l s1 ∧ ∀ new, ∃ p t, rewritesWord l s1 d new p t)
      ∧ ∃ l s1 d, evalField 2 ⟨.autoincDeferred, .r0⟩ mapped = .ok l s1 ∧ ∀ new, ∃ p t, rewritesWord l s1 d new p t :=
  ⟨fun d => ⟨machine 0 [(.r0, d)] [], _, _, rfl, fun _ => ⟨_, _, _, rfl, rfl, rfl⟩⟩,
   _, _, _, rfl, fun _ => ⟨_, _, _, _, _, rfl, rfl, rfl, rfl⟩⟩

theorem witness_SingleOperandByte :
    (∃ l s1 d, evalField 1 ⟨.register, .r0⟩ mapped = .ok l s1 ∧ ∀ new, ∃ p t, rewritesByte l s1 d new p t)
      ∧ ∃ l s1 d, evalField 1 ⟨.autoinc, .r0⟩ mapped = .ok l s1 ∧ ∀ new, ∃ p t, rewritesByte l s1 d new p t :=
  ⟨⟨_, _, _, rfl, fun _ => ⟨_, _, _, _, rfl, rfl, rfl, rfl⟩⟩,
   _, _, _, rfl, fun _ => ⟨_, _, _, _, _, _, rfl, rfl, rfl, rfl, rfl⟩⟩

/-- Both forms, in a register and in memory, with N clear and set. -/
theorem witness_ClearTestExtend :
    (∃ l s1 p t d u, evalField 2 ⟨.autoincDeferred, .r0⟩ mapped = .ok l s1 ∧ writeLoc l 0 s1 = .ok p t
      ∧ readLoc l s1 = .ok d u)
      ∧ (∃ s l s1 p t, s.ps.getLsbD 3 = true ∧ evalField 2 ⟨.register, .r0⟩ s = .ok l s1
        ∧ writeLoc l 0o177777 s1 = .ok p t)
      ∧ ∃ l s1 p t d u, evalField 1 ⟨.autoinc, .r0⟩ mapped = .ok l s1 ∧ writeLocByte l 0 s1 = .ok p t
        ∧ readLocByte l s1 = .ok d u :=
  ⟨⟨_, _, _, _, _, _, rfl, rfl, rfl⟩, ⟨machine 0o10 [] [], _, _, _, _, rfl, rfl, rfl⟩, _, _, _, _, _, _, rfl, rfl, rfl⟩

/-- Memory to memory, register to register with every pair of words; and XOR. -/
theorem witness_DoubleOperandWord :
    (∃ x s1 l s2 v s3, sourceWord ⟨.autoinc, .r0⟩ mapped = .ok x s1 ∧ evalField 2 ⟨.autodecDeferred, .r0⟩ s1 = .ok l s2
      ∧ x.word s2 = .ok v s3 ∧ (∃ p t, writeLoc l v s3 = .ok p t) ∧ (∃ d t, readLoc l s3 = .ok d t)
      ∧ ∃ d, ∀ new, ∃ p t, rewritesWord l s3 d new p t)
      ∧ (∀ v d : Word, ∃ s x s1 l s2 s3, sourceWord ⟨.register, .r1⟩ s = .ok x s1
        ∧ evalField 2 ⟨.register, .r2⟩ s1 = .ok l s2 ∧ x.word s2 = .ok v s3
        ∧ ∀ new, ∃ p t, rewritesWord l s3 d new p t)
      ∧ ∃ l s1 x s2 d, evalField 2 ⟨.autoinc, .r0⟩ mapped = .ok l s1 ∧ readReg .r0 s1 = .ok x s2
        ∧ ∀ new, ∃ p t, rewritesWord l s2 d new p t :=
  ⟨⟨_, _, _, _, _, _, rfl, rfl, rfl, ⟨_, _, rfl⟩, ⟨_, _, rfl⟩, _, fun _ => ⟨_, _, _, _, _, rfl, rfl, rfl, rfl⟩⟩,
   fun v d => ⟨machine 0 [(.r1, v), (.r2, d)] [], _, _, _, _, _, rfl, rfl, rfl, fun _ => ⟨_, _, _, rfl, rfl, rfl⟩⟩,
   _, _, _, _, _, rfl, rfl, fun _ => ⟨_, _, _, _, _, rfl, rfl, rfl, rfl⟩⟩

theorem witness_DoubleOperandByte :
    (∃ x s1 l s2 v s3, sourceByte ⟨.autoinc, .r0⟩ mapped = .ok x s1 ∧ evalField 1 ⟨.registerDeferred, .r0⟩ s1 = .ok l s2
      ∧ x.byte s2 = .ok v s3 ∧ (∃ p t, writeLocByte l v s3 = .ok p t) ∧ (∃ d t, readLocByte l s3 = .ok d t)
      ∧ ∃ d, ∀ new, ∃ p t, rewritesByte l s3 d new p t)
      ∧ ∃ x s1 l s2 v s3 d, sourceByte ⟨.register, .r0⟩ mapped = .ok x s1 ∧ evalField 1 ⟨.register, .r1⟩ s1 = .ok l s2
        ∧ x.byte s2 = .ok v s3 ∧ ∀ new, ∃ p t, rewritesByte l s3 d new p t :=
  ⟨⟨_, _, _, _, _, _, rfl, rfl, rfl, ⟨_, _, rfl⟩, ⟨_, _, rfl⟩, _, fun _ => ⟨_, _, _, _, _, _, rfl, rfl, rfl, rfl, rfl⟩⟩,
   _, _, _, _, _, _, _, rfl, rfl, rfl, fun _ => ⟨_, _, _, _, rfl, rfl, rfl, rfl⟩⟩

/-- Any multiplier, dividend and divisor: in particular 0, a quotient that fits and one that does not. -/
theorem witness_MultiplyDivide : ∀ v x y : Word, ∃ s s1 s2 s3, operandWord ⟨.register, .r4⟩ s = .ok v s1
    ∧ readReg .r0 s1 = .ok x s2 ∧ readReg (oddOf .r0) s2 = .ok y s3 :=
  fun v x y => ⟨machine 0 [(.r4, v), (.r0, x), (.r1, y)] [], _, _, _, rfl, rfl, rfl⟩

theorem witness_ArithmeticShifts : ∀ v x y : Word, ∃ s s1 s2 s3, operandWord ⟨.register, .r4⟩ s = .ok v s1
    ∧ readReg .r2 s1 = .ok x s2 ∧ readReg (oddOf .r2) s2 = .ok y s3 :=
  fun v x y => ⟨machine 0 [(.r4, v), (.r2, x), (.r3, y)] [], _, _, _, rfl, rfl, rfl⟩

/-- A register, memory, and the PS, which lies in the I/O page. -/
theorem witness_DestinationFrame :
    (∃ d, ∀ x, ∃ p t, rewritesWord (.reg .r0) mapped d x p t) ∧ (∃ d, ∀ x, ∃ p t, rewritesByte (.reg .r0) mapped d x p t)
      ∧ (∃ m g, translate mapped.mode 0o2000 true mapped = .ok m mapped ∧ busGrant mapped = .ok ⟨⟩ g
        ∧ isIoPage m.pa = false
        ∧ (∃ d, ∀ x, ∃ p t, rewritesWord (.mem 0o2000) mapped d x p t)
        ∧ (∃ d, ∀ x, ∃ p t, rewritesByte (.mem 0o2000) mapped d x p t)
        ∧ (∀ x, ∃ p t, writeLoc (.mem 0o2000) x mapped = .ok p t)
        ∧ ∀ x, ∃ p t, writeLocByte (.mem 0o2000) x mapped = .ok p t)
      ∧ ∃ m g, translate ready.mode 0o177776 true ready = .ok m ready ∧ busGrant ready = .ok ⟨⟩ g ∧ isIoPage m.pa = true
        ∧ ∃ d, ∀ x, ∃ p t, rewritesWord (.mem 0o177776) ready d x p t :=
  ⟨⟨_, fun _ => ⟨_, _, _, rfl, rfl, rfl⟩⟩, ⟨_, fun _ => ⟨_, _, _, _, rfl, rfl, rfl, rfl⟩⟩,
   ⟨_, _, rfl, rfl, rfl, ⟨_, fun _ => ⟨_, _, _, _, _, rfl, rfl, rfl, rfl⟩⟩, ⟨_, fun _ => ⟨_, _, _, _, _, _, rfl, rfl, rfl, rfl, rfl⟩⟩,
    fun _ => ⟨_, _, rfl⟩, fun _ => ⟨_, _, rfl⟩⟩,
   _, _, rfl, rfl, rfl, _, fun _ => ⟨_, _, _, _, _, rfl, rfl, rfl, rfl⟩⟩

/-- SOB: the last turn and any other. -/
theorem witness_Branches : ∀ x : Word, ∃ u, readReg .r1 (machine 0 [(.r1, x)] []) = .ok x u := fun _ => ⟨_, rfl⟩

/-- The codes of a compare of any two words stand in some state. -/
theorem witness_CompareThenBranch :
    psCodes (machine 0o11 [] []).ps = aluCmp (1 : Word) 2 ∧ psCodes (machine 0o2 [] []).ps = aluCmp (0o100000 : Word) 1
      ∧ psCodes (machine 0o4 [] []).ps = aluCmp (7 : Word) 7 := by decide

theorem witness_JumpsAndSubroutines :
    (∃ target s1 sp u v link v' p t, evalField 2 ⟨.indexDeferred, .r0⟩ mapped = .ok (.mem target) s1
      ∧ readReg .sp s1 = .ok sp u ∧ noteStackLimit (sp - 2) (u.withReg .sp (sp - 2)) = .ok ⟨⟩ v
      ∧ readReg .r5 v = .ok link v' ∧ writeWord (sp - 2) link v' = .ok p t)
      ∧ (∃ x u w t, readReg .r5 ready = .ok x u ∧ pop { u with regs := { u.regs with pc := x } } = .ok w t)
      ∧ ∃ w t, pop { ready.withReg .sp (ready.regs.pc + 4) with
          regs := { (ready.withReg .sp (ready.regs.pc + 4)).regs with pc := ready.regs.r5 } } = .ok w t :=
  ⟨⟨_, _, _, _, _, _, _, _, _, rfl, rfl, rfl, rfl, rfl⟩, ⟨_, _, _, _, rfl, rfl⟩, _, _, rfl⟩

theorem witness_ProcessorStatusMoves :
    (∃ l s1 b t, evalField 1 ⟨.register, .r0⟩ ready = .ok l s1 ∧ readLocByte l s1 = .ok b t)
      ∧ ∃ l s1 p t, evalField 1 ⟨.autoinc, .r0⟩ mapped = .ok l s1 ∧ writeLocByte l 0o213 s1 = .ok p t :=
  ⟨⟨_, _, _, _, rfl, rfl⟩, _, _, _, _, rfl, rfl⟩

/-- The R6 of the previous mode, another register, memory of the previous space; both directions. -/
theorem witness_PreviousSpaceMoves :
    (∃ s1 v s2 p t, evalField 2 ⟨.register, .sp⟩ ready = .ok (.reg .sp) s1
      ∧ readSpOf (psPrevious ready.ps) s1 = .ok v s2 ∧ push v s2 = .ok p t)
      ∧ (∃ s1 v s2 p t, evalField 2 ⟨.register, .r0⟩ ready = .ok (.reg .r0) s1 ∧ readReg .r0 s1 = .ok v s2
        ∧ push v s2 = .ok p t)
      ∧ (∃ ea s1 v s2 p t, evalField 2 ⟨.autoinc, .r0⟩ mapped = .ok (.mem ea) s1
        ∧ readWordIn (psPrevious mapped.ps) ea s1 = .ok v s2 ∧ push v s2 = .ok p t)
      ∧ ∃ v s1 ea s2 p t, pop mapped = .ok v s1 ∧ evalField 2 ⟨.autoinc, .r0⟩ s1 = .ok (.mem ea) s2
        ∧ writeWordIn (psPrevious mapped.ps) ea v s2 = .ok p t :=
  ⟨⟨_, _, _, _, _, rfl, rfl, rfl⟩, ⟨_, _, _, _, _, rfl, rfl, rfl⟩, ⟨_, _, _, _, _, _, rfl, rfl, rfl⟩,
   _, _, _, _, _, _, rfl, rfl, rfl⟩

/-- HALT and RESET in kernel mode, and outside it. -/
theorem witness_ControlInstructions : (∃ g, busGrant ready = .ok ⟨⟩ g) ∧ ready.mode = .kernel ∧ ready.lines.bpok = true
    ∧ ready.cfg.haltTrap = false ∧ ready.cfg.uart1NoInit = false ∧ (machine 0o140000 [] []).mode ≠ .kernel :=
  ⟨⟨_, rfl⟩, by decide⟩

/-- A step cut short, inputs while power is off, its return, each power-up mode with the halt line quiet and asserted, 24 and
26 failing, and BPOK H negated. -/
theorem witness_PowerUpAndDown :
    ({ ready with inputs := [.powerDown 3] } : State).inputs = [.powerDown 3] ∧ ready.cfg.uart1NoInit = false
      ∧ ({ ready with run := .poweredDown, inputs := [.quiet] } : State).run = .poweredDown
      ∧ ({ ready with bus := { dma := [], seen := [], left := some 0 } } : State).bus.left = some 0
      ∧ (tick { ready with run := .poweredDown, inputs := [.powerUp] }).run = .awaitingBpok
      ∧ (tick { ready with inputs := [.bpok false] }).pend.pwrdwn = true
      ∧ ready.mode = .kernel ∧ ready.quiet = true
      ∧ (plainMemory ready 0o24 = true ∧ plainMemory ready 0o26 = true)
      ∧ ((ready.lines.bhalt || ready.lines.breakHalt) = false
        ∧ ({ ready with lines := { ready.lines with bhalt := true } } : State).lines.bhalt = true)
      ∧ (∃ s u : State, s.cfg.powerUpMode = .mode0 ∧ busRead 0o24 { s with ps := 0, run := .running } = .error (.abort .timeout) u)
      ∧ ∃ (s : State) (v : Word) (w u : State), s.cfg.powerUpMode = .mode0 ∧ s.quiet = true
        ∧ busRead 0o24 { s with ps := 0, run := .running } = .ok v w
        ∧ busRead 0o26 { w with regs := { w.regs with pc := v } } = .error (.abort .parity) u :=
  ⟨rfl, rfl, rfl, rfl, rfl, rfl, rfl, rfl, by decide +kernel, ⟨rfl, rfl⟩,
   ⟨{ ready with cfg := { Config.factory with ram := [], powerUpMode := .mode0 } }, _, rfl, rfl⟩,
   { ready with cfg := { Config.factory with parityBad := [0o26], powerUpMode := .mode0 } }, _, _, _, rfl, rfl, rfl, rfl⟩

/-- A machine with an F value 3.0 (40500) at 2000, and 3000 in R0. -/
def floating : State :=
  fpIn 0 [(0, 0x4080000000000000), (1, 0x4100000000000000), (2, 0x4040000011112222)] 0 0
    (machine 0 [(.r0, 0o2000), (.r1, 0o3000), (.sp, 0o770)] [(0o2000, 0o40500), (0o3000, 0o100000)])

/-- The destination of STFPS and the three of STST: a register, the immediate word, memory. -/
theorem witness_FpStatus : floating.cfg.fpPresent = true ∧ (∃ v t, operandWord ⟨.registerDeferred, .r0⟩ floating = .ok v t)
    ∧ (∃ l u p t, evalField 2 ⟨.autoinc, .r0⟩ floating = .ok l u ∧ writeLoc l floating.fpp.fps u = .ok p t)
    ∧ (∃ l u p t, longLoc ⟨.autoinc, .r0⟩ floating = .ok l u
      ∧ writeLong (floating.fpp.fec.setWidth 16) floating.fpp.fea l u = .ok p t)
    ∧ (∃ a u p t q v, evalField 4 ⟨.autodec, .sp⟩ floating = .ok (.mem a) u ∧ writeWord a 1 u = .ok p t
      ∧ writeWord (a + 2) 2 t = .ok q v)
    ∧ ∃ p t, writeWord floating.regs.pc 1 { floating with regs := { floating.regs with pc := floating.regs.pc + 2 } } = .ok p t :=
  ⟨rfl, ⟨_, _, rfl⟩, ⟨_, _, _, _, rfl, rfl⟩, ⟨_, _, _, _, rfl, rfl⟩, ⟨_, _, _, _, _, _, rfl, rfl, rfl⟩, _, _, rfl⟩

/-- An accumulator and memory; the words of a read, of which the first is the last of the address space, and an immediate. -/
theorem witness_FpSingleOperand :
    (∃ s1, fpOperandAt .f ⟨.register, .r2⟩ floating (.acc 2) s1 ∧ ∃ v s2, fpSourceAt .f ⟨.register, .r2⟩ floating (.acc 2) v s2
      ∧ undefinedTrap (fpModes floating.fpp.fps) (.acc 2) v = false
      ∧ ∀ r, (∃ t, writeFp .f r (.acc 2) s1 = .ok ⟨⟩ t) ∧ ∃ t, writeFp .f r (.acc 2) s2 = .ok ⟨⟩ t)
      ∧ (∃ l s1 v s2, fpOperandAt .f ⟨.autoinc, .r0⟩ floating l s1 ∧ fpSourceAt .f ⟨.autoinc, .r0⟩ floating l v s2
        ∧ undefinedTrap (fpModes floating.fpp.fps) l v = false ∧ (∃ t, writeFp .f 0 l s1 = .ok ⟨⟩ t)
        ∧ ∃ t, writeFp .f 0 l s2 = .ok ⟨⟩ t)
      ∧ (∃ w t, fetchWord floating = .ok w t) ∧ (∃ u a v t, evalField 8 ⟨.autodec, .r0⟩ floating = .ok (.mem a) u
        ∧ readFp .d a u = .ok v t)
      ∧ (floating.mem.wf = true ∧ floating.quiet = true) ∧ floating.mmu.sr0.getLsbD 0 = false
      ∧ (∀ i < Fmt.d.bytes / 2, plainMemory floating (unmapped (0o2000 + BitVec.ofNat 16 (2 * i))) = true)
      ∧ (∃ w0 w1 w2 w3 s1 s2 s3 s4, readWord 0o177776 floating = .ok w0 s1 ∧ readWord (0o177776 + 2) s1 = .ok w1 s2
        ∧ readWord (0o177776 + 4) s2 = .ok w2 s3 ∧ readWord (0o177776 + 6) s3 = .ok w3 s4)
      ∧ (∃ p t, writeWord 0o1000 ((0x4080000000000000 : Quad).extractLsb' 48 16) floating = .ok p t)
      ∧ ∃ a t, evalField 8 ⟨.autodec, .r0⟩ floating = .ok (.mem a) t :=
  ⟨⟨_, ⟨rfl, _, rfl, rfl⟩, _, _, ⟨rfl, _, rfl, rfl, rfl⟩, by decide +kernel, fun _ => ⟨⟨_, rfl⟩, _, rfl⟩⟩,
   ⟨_, _, _, _, (rfl : fpAddress 4 ⟨.autoinc, .r0⟩ floating = _), (rfl : fpSource .f ⟨.autoinc, .r0⟩ floating = _),
    by decide +kernel, ⟨_, rfl⟩, _, rfl⟩,
   ⟨_, _, rfl⟩, ⟨_, _, _, _, rfl, rfl⟩,
   by decide +kernel, by decide +kernel, by decide +kernel, ⟨_, _, _, _, _, _, _, _, rfl, rfl, rfl, rfl⟩, ⟨_, _, rfl⟩, _, _, rfl⟩

/-- 3.0 against 0.5: each operation delivers without an exception; the divisor is not 0. And two accumulators compared. -/
theorem witness_FpArithmetic :
    (∃ l v s2, fpSourceAt .f ⟨.autoinc, .r0⟩ floating l v s2
      ∧ undefinedTrap (fpModes floating.fpp.fps) l v = false ∧ fpExp v ≠ 0
      ∧ (let md := fpModes floating.fpp.fps
         let a := accRead .f 0 floating
         (fpAdd md a v).error = none ∧ (fpSub md a v).error = none ∧ (fpMul md a v).error = none
           ∧ (fpDiv md a v).error = none ∧ ∀ free, (fpMod md free a v).part.error = none))
      ∧ ∃ v s2, fpSourceAt .f ⟨.register, .r1⟩ floating (.acc 1) v s2
        ∧ undefinedTrap (fpModes floating.fpp.fps) (.acc 1) v = false :=
  ⟨⟨_, _, _, (rfl : fpSource .f ⟨.autoinc, .r0⟩ floating = _), by decide +kernel, by decide +kernel,
    by decide +kernel, by decide +kernel, by decide +kernel, by decide +kernel, fun _ => rfl⟩,
   _, _, ⟨rfl, _, rfl, rfl, rfl⟩, by decide +kernel⟩


/-- The divisor of the quotient clause, an integer of the largest magnitude that converts exactly, and products in each range
of exponents: 2^252, 2^126, 1 and 2^-128. -/
theorem witness_FpExactOperands : fpExp (0x4080000000000000 : Quad) ≠ 0
    ∧ ((16777215 : Int)).natAbs < 2 ^ Fmt.f.fraction ∧ (-2147483648 : Int).natAbs ≤ 2 ^ 31
    ∧ ∃ big one small : Quad,
      let within (x : ℚ) (K : ℤ) : Prop := (2 : ℚ) ^ (K - 1) ≤ |x| ∧ |x| < 2 ^ K
      within (fpValue big * fpValue big) 253 ∧ within (fpValue big * fpValue one) 127 ∧ within (fpValue one * fpValue one) 1
        ∧ within (fpValue small * fpValue one) (-127) := by
  refine ⟨by decide, by decide, by decide, 0x7F80000000000000, 0x4080000000000000, 0x0080000000000000, ?_⟩
  have h1 : fpValue 0x7F80000000000000 = 2 ^ 126 := by
    rw [fpValue, show fpMantissa 0x7F80000000000000 = 2 ^ 55 by decide, show fpExp 0x7F80000000000000 = 255 by decide]
    norm_num
  have h2 : fpValue 0x4080000000000000 = 1 := by
    rw [fpValue, show fpMantissa 0x4080000000000000 = 2 ^ 55 by decide, show fpExp 0x4080000000000000 = 129 by decide]
    norm_num
  have h3 : fpValue 0x0080000000000000 = 2 ^ (-128 : ℤ) := by
    rw [fpValue, show fpMantissa 0x0080000000000000 = 2 ^ 55 by decide, show fpExp 0x0080000000000000 = 1 by decide]
    norm_num
  simp only [h1, h2, h3]
  norm_num

/-- The least and the greatest exponent, chopped and rounded, and those just beyond. -/
theorem witness_FpDeliveredValue :
    (fpNorm .f true 1 1 (-128)).1 = 1 ∧ (fpNorm .f false 0xFFFFFF 1 103).1 = 255 ∧ (fpNorm .d false 1 3 0).1 = 127
      ∧ (fpNorm .f true 1 1 (-129)).1 = 0 ∧ (fpNorm .f false 0x1FFFFFF 1 102).1 = 256 := by
  decide +kernel

/-- Every clause: STEXP, LDEXP at both ends and beyond, LDCIF, STCFI within and beyond the limit, LDCDF, STCFD; a short integer,
and a long one in a register, in the immediate word and in memory. -/
theorem witness_FpConversions :
    (∃ l u, evalField 2 ⟨.register, .r3⟩ floating = .ok l u ∧ ∀ r, ∃ p t, writeLoc l r u = .ok p t)
      ∧ (∃ t, operandWord ⟨.register, .r3⟩ (floating.withReg .r3 0o177) = .ok 0o177 t)
      ∧ (∃ t, operandWord ⟨.register, .r3⟩ (floating.withReg .r3 0o177601) = .ok 0o177601 t)
      ∧ (∃ t, operandWord ⟨.register, .r3⟩ (floating.withReg .r3 0o200) = .ok 0o200 t)
      ∧ (fpModes 0o3400).conversionTraps = true ∧ (fpModes 0o3400).overflowTraps = true
      ∧ (fpConvert (fpModes 0o1000) .d 0x7FFFFFFFFFFFFFFF).error = some .overflow
      ∧ (∃ i t, readInteger (fpModes 0) ⟨.registerDeferred, .r1⟩ floating = .ok i t)
      ∧ (∃ i t, readInteger (fpModes 0o100) ⟨.registerDeferred, .r1⟩ floating = .ok i t)
      ∧ (∀ r, ∃ p t, writeInteger (fpModes 0) ⟨.register, .r3⟩ r floating = .ok p t)
      ∧ fpTrunc 0x4800000000000000 = 32768 ∧ fpTrunc 0xC800000000000000 = -32768
      ∧ (∃ l v w, fpSourceAt .d ⟨.autoinc, .r0⟩ floating l v w
        ∧ undefinedTrap (fpModes floating.fpp.fps) l v = false ∧ (fpConvert (fpModes 0) .d v).error = none)
      ∧ (∃ l u, fpOperandAt .d ⟨.autoinc, .r0⟩ floating l u
        ∧ (fpConvert (fpModes 0) .f (accRead .f 0 floating)).error = none
        ∧ ∃ t, writeFp .d 0x4080000000000000 l u = .ok ⟨⟩ t)
      ∧ ((fpModes 0).long = false ∧ (fpModes 0o100).long = true)
      ∧ (∃ l u p t, evalField 2 ⟨.registerDeferred, .r1⟩ floating = .ok l u ∧ writeLoc l (BitVec.ofInt 16 (-5)) u = .ok p t)
      ∧ (∃ u w t, longLoc ⟨.register, .r3⟩ floating = .ok (.reg .r3) u ∧ readReg .r3 u = .ok w t)
      ∧ (∃ u w t, longLoc ⟨.autoinc, .pc⟩ floating = .ok .imm u ∧ fetchWord u = .ok w t
        ∧ ∃ p v, writeLong 1 2 .imm u = .ok p v)
      ∧ (∃ a u w t x v, longLoc ⟨.autoinc, .r0⟩ floating = .ok (.mem a) u ∧ readWord a u = .ok w t
        ∧ readWord (a + 2) t = .ok x v ∧ ∃ p v, writeLong 1 2 (.mem a) u = .ok p v) :=
  ⟨⟨_, _, rfl, fun _ => ⟨_, _, rfl⟩⟩, ⟨_, rfl⟩, ⟨_, rfl⟩, ⟨_, rfl⟩, by decide, by decide, by decide +kernel, ⟨_, _, rfl⟩,
   ⟨_, _, rfl⟩, fun _ => ⟨_, _, rfl⟩,
   by decide +kernel, by decide +kernel,
   ⟨_, _, _, (rfl : fpSource .d ⟨.autoinc, .r0⟩ floating = _), by decide +kernel, by decide +kernel⟩,
   ⟨_, _, (rfl : fpAddress 8 ⟨.autoinc, .r0⟩ floating = _), by decide +kernel, _, rfl⟩,
   ⟨rfl, rfl⟩, ⟨_, _, _, _, rfl, rfl⟩, ⟨_, _, _, rfl, rfl⟩, ⟨_, _, _, rfl, rfl, _, _, rfl⟩,
   _, _, _, _, _, _, rfl, rfl, rfl, _, _, rfl⟩

/-- An enabled -0 in memory, also as a D value; a zero divisor; overflow of a sum, a product and a fraction, enabled, and
underflow of a difference and a quotient. -/
theorem witness_FpExceptions :
    (∃ s l v s2 t, s.cfg.fpPresent = true ∧ fpSourceAt .f ⟨.registerDeferred, .r1⟩ s l v s2
      ∧ undefinedTrap (fpModes s.fpp.fps) l v = true ∧ writeFp .f 0 l s2 = .ok ⟨⟩ t)
      ∧ (∃ s l v s2, s.cfg.fpPresent = true ∧ fpSourceAt .d ⟨.registerDeferred, .r1⟩ s l v s2
        ∧ undefinedTrap (fpModes s.fpp.fps) l v = true)
      ∧ (∃ v s2, fpSourceAt .f ⟨.register, .r3⟩ floating (.acc 3) v s2
        ∧ undefinedTrap (fpModes floating.fpp.fps) (.acc 3) v = false ∧ fpExp v = 0)
      ∧ (let md := fpModes 0o3000
         (fpAdd md 0x7FFF000000000000 0x7FFF000000000000).error = some .overflow
           ∧ (fpMul md 0x7FFF000000000000 0x7FFF000000000000).error = some .overflow
           ∧ (fpMod md 0 0x7FFF000000000000 0x7FFF000000000000).part.error = some .overflow
           ∧ (fpSub md 0x0081000000000000 0x0080000000000000).error = some .underflow
           ∧ (fpDiv md 0x0080000000000000 0x7FFF000000000000).error = some .underflow) :=
  ⟨⟨{ floating with fpp := { floating.fpp with fps := 0o4000 } }, _, _, _, _, rfl,
    (rfl : fpSource .f ⟨.registerDeferred, .r1⟩ { floating with fpp := { floating.fpp with fps := 0o4000 } } = _),
    by decide +kernel, rfl⟩,
   ⟨{ floating with fpp := { floating.fpp with fps := 0o4000 } }, _, _, _, rfl,
    (rfl : fpSource .d ⟨.registerDeferred, .r1⟩ { floating with fpp := { floating.fpp with fps := 0o4000 } } = _),
    by decide +kernel⟩,
   ⟨_, _, ⟨rfl, _, rfl, rfl, rfl⟩, by decide +kernel, by decide +kernel⟩, by decide +kernel⟩

/-- Strings "ABC" at 2000 and "BC" at 2010, descriptors of both at 2100 and 2104, and words after an op code that point at
them; R0 to R5 hold the descriptors, a fill character and a table. -/
def commercial : State :=
  machine 0 [(.r0, 3), (.r1, 0o2000), (.r2, 2), (.r3, 0o2010), (.r4, 0o40), (.r5, 0o3000), (.sp, 0o770)]
    [(0o1000, 0o2100), (0o1002, 0o2104), (0o1004, 0o40), (0o2000, 0o41101), (0o2002, 0o103), (0o2010, 0o41502),
     (0o2100, 3), (0o2102, 0o2000), (0o2104, 2), (0o2106, 0o2010)]

/-- In-line words and the descriptors they point at; the first descriptor of L2D (PC). -/
theorem witness_CisOperands :
    (commercial.cfg.cisPresent = true
        ∧ ∃ a u p v x w y t, readReg .pc commercial = .ok a u ∧ readWord a u = .ok p v ∧ readWord p v = .ok x w
          ∧ readWord (p + 2) w = .ok y t)
      ∧ (∃ p q w x s1 s2 s3 s4, fetchWord commercial = .ok p s1 ∧ fetchWord s1 = .ok q s2 ∧ fetchWord s2 = .ok w s3
      ∧ fetchWord s3 = .ok x s4)
      ∧ ∃ x y u z, readWord 0o2100 commercial = .ok x u ∧ readWord 0o2102 u = .ok y z :=
  ⟨⟨rfl, _, _, _, _, _, _, _, _, rfl, rfl, rfl, rfl⟩, ⟨_, _, _, _, _, _, _, _, rfl, rfl, rfl, rfl⟩, _, _, _, _, rfl, rfl⟩

/-- PS<8> set before a commercial instruction: the clause of CharacterMoves, CharacterSearches, CompareAndMatch,
DecimalArithmetic and DecimalConversions. -/
theorem witness_suspended : commercial.cfg.cisPresent = true ∧ ({ commercial with ps := 0o400 } : State).ps.getLsbD 8 = true :=
  ⟨rfl, rfl⟩

/-- Both forms; a source that is longer than the destination; a readable table that the destination does not overlap;
a fill word with a high byte, a table that cannot be read, and one that the destination overlaps. -/
theorem witness_CharacterMoves : commercial.cfg.cisPresent = true ∧ commercial.ps.getLsbD 8 = false
    ∧ (∃ m s1, moveOps .inLine false commercial = .ok m s1 ∧ highByte m.fill = 0)
    ∧ (∃ m s1 b s2 p t, moveOps .register false commercial = .ok m s1 ∧ highByte m.fill = 0
      ∧ readBytes (byteAddrs m.src.snd 2) s1 = .ok b s2 ∧ storeBytes m.dst.snd b s2 = .ok p t)
    ∧ (∃ b s2 p s3 q t, commercial.tableReadable 0o3000 = true
      ∧ commercial.overlaps (byteAddrs 0o2010 2) (byteAddrs 0o3000 256) = false
      ∧ readBytes (byteAddrs 0o2000 2) commercial = .ok b s2 ∧ storeTranslated 0o3000 0o2010 b s2 = .ok p s3
      ∧ storeBytes 0o2012 [] s3 = .ok q t)
    ∧ (∃ m s1, moveOps .register true (commercial.withReg .r4 0o440) = .ok m s1 ∧ highByte m.fill ≠ 0)
    ∧ (∃ m s1, moveOps .register true (commercial.withReg .r5 0o157701) = .ok m s1 ∧ highByte m.fill = 0
      ∧ s1.tableReadable m.table = false)
    ∧ ∃ m s1 bytes s2 free s3 p t, moveOps .register true (commercial.withReg .r5 0o2011) = .ok m s1 ∧ highByte m.fill = 0
      ∧ s1.tableReadable m.table = true
      ∧ s1.overlaps (byteAddrs m.dst.snd m.dst.fst.toNat) (byteAddrs m.table 256) = true
      ∧ readBytes (byteAddrs m.src.snd 2) s1 = .ok bytes s2
      ∧ anyBytes 2 s2 = .ok free s3 ∧ storeBytes m.dst.snd free s3 = .ok p t :=
  ⟨rfl, rfl, ⟨_, _, rfl, rfl⟩, ⟨_, _, _, _, _, _, rfl, rfl, rfl, rfl⟩,
   ⟨_, _, _, _, _, _, by decide +kernel, by decide +kernel, rfl, rfl, rfl⟩,
   ⟨_, _, rfl, by decide⟩, ⟨_, _, rfl, rfl, by decide +kernel⟩,
   _, _, _, _, _, _, _, _, rfl, rfl, by decide +kernel, by decide +kernel, rfl, rfl, rfl⟩

/-- A character that is found, one that is not, and a set; high bytes, and a table that cannot be read. -/
theorem witness_CharacterSearches :
    (∃ src w s1, charSearchOps .inLine commercial = .ok ((src, w) : Desc × Word) s1)
      ∧ (∃ index t, searchFrom (fun b => pure (b == 0o102)) 0 (byteAddrs 0o2000 3) commercial = .ok index t)
      ∧ (∃ index t, searchFrom (fun b => pure (b == 0o132)) 0 (byteAddrs 0o2000 3) commercial = .ok index t)
      ∧ (∃ index t, commercial.tableReadable 0o3000 = true
        ∧ searchFrom (inSet 1 0o3000) 0 (byteAddrs 0o2000 3) commercial = .ok index t)
      ∧ (∃ src w s1, charSearchOps .register (commercial.withReg .r4 0o440) = .ok ((src, w) : Desc × Word) s1
        ∧ highByte w ≠ 0)
      ∧ (∃ src set s1, twoDescs .register .r4 .r5 (commercial.withReg .r4 0o440) = .ok ((src, set) : Desc × Desc) s1
        ∧ highByte set.fst ≠ 0)
      ∧ ∃ src set s1, twoDescs .register .r4 .r5 (commercial.withReg .r5 0o157701) = .ok ((src, set) : Desc × Desc) s1
        ∧ s1.tableReadable set.snd = false :=
  ⟨⟨_, _, _, rfl⟩, ⟨_, _, rfl⟩, ⟨_, _, rfl⟩, ⟨_, _, by decide +kernel, rfl⟩, ⟨_, _, _, rfl, by decide⟩,
   ⟨_, _, _, rfl, by decide⟩, _, _, _, rfl, by decide +kernel⟩

theorem witness_CompareAndMatch :
    (∃ a b w s1 r t, compareOps .register commercial = .ok ((a, b, w) : Desc × Desc × Word) s1 ∧ highByte w = 0
      ∧ compareFrom a b (lowByte w) 3 0 s1 = .ok r t)
      ∧ (∃ a b s1 r t, twoDescs .register .r2 .r3 commercial = .ok ((a, b) : Desc × Desc) s1
        ∧ matchFrom a b 2 0 s1 = .ok r t)
      ∧ ∃ a b w s1, compareOps .register (commercial.withReg .r4 0o440) = .ok ((a, b, w) : Desc × Desc × Word) s1
        ∧ highByte w ≠ 0 :=
  ⟨⟨_, _, _, _, _, _, rfl, rfl, rfl⟩, ⟨_, _, _, _, _, rfl, rfl⟩, _, _, _, _, rfl, by decide⟩

/-- A source and an object, a character of a set, and a condition. -/
theorem witness_SearchesFindFirst :
    let as : List Byte := [0o101, 0o102, 0o103]
    let bs : List Byte := [0o102, 0o103]
    (as.length = (3 : Word).toNat
      ∧ ∀ i (h : i < as.length), readByte (0o2000 + BitVec.ofNat 16 i) commercial = .ok as[i] commercial)
      ∧ (bs.length = (2 : Word).toNat
        ∧ ∀ i (h : i < bs.length), readByte (0o2010 + BitVec.ofNat 16 i) commercial = .ok bs[i] commercial)
      ∧ commercial.bus.left ≠ some 0 ∧ (∃ m t, readByte (0o3000 + (0o377 : Byte).setWidth 16) commercial = .ok m t)
      ∧ ∀ c, (pure (c == (0o102 : Byte)) : M Bool) commercial = .ok (c == 0o102) commercial := by
  refine ⟨⟨rfl, fun i h => ?_⟩, ⟨rfl, fun i h => ?_⟩, by decide, ⟨_, _, rfl⟩, fun _ => rfl⟩
  · match i, h with
    | 0, _ => rfl
    | 1, _ => rfl
    | 2, _ => rfl
  · match i, h with
    | 0, _ => rfl
    | 1, _ => rfl

/-- A string that ends at the last byte below the I/O page; what is read of it; a table away from it. -/
theorem witness_StringStore : (commercial.mem.wf = true ∧ commercial.quiet = true) ∧ commercial.mmu.sr0.getLsbD 0 = false
    ∧ (∀ i < 2, plainMemory commercial (unmapped (0o157776 + BitVec.ofNat 16 i)) = true)
    ∧ (let bytes : List Byte := [0, 0]
       ∀ i (h : i < bytes.length), bytes[i] = commercial.mem.read (memoryAddr commercial.cfg (unmapped (0o157776 + BitVec.ofNat 16 i))))
    ∧ (∀ i < 256, plainMemory commercial (unmapped (0o3000 + BitVec.ofNat 16 i)) = true)
    ∧ ∀ i < 2, ∀ c < 256, memoryAddr commercial.cfg (unmapped (0o3000 + BitVec.ofNat 16 c))
      ≠ memoryAddr commercial.cfg (unmapped (0o157776 + BitVec.ofNat 16 i)) := by decide +kernel

/-- Packed sources +2 and +3 (bytes 054, 074) and a destination of one digit. -/
def decimal : State :=
  bytesIn [(0o2000, 0o054), (0o2010, 0o074)]
    (machine 0 [(.r0, 0o60001), (.r1, 0o2000), (.r2, 0o60001), (.r3, 0o2010), (.r4, 0o60001), (.r5, 0o2020)] [])

/-- The packed classes: both sources valid, no forbidden overlap; a zero divisor; a place, and an overlap; a
descriptor of no class, and a source that is not valid. -/
theorem witness_DecimalArithmetic :
    (∃ a b c s1 s2 s3 t p, threeDescs .register decimal = .ok ((a, b, c) : Desc × Desc × Desc) s1
      ∧ (⟨.signedPacked, 1, 0o2000⟩ : Dec).read s1 = .ok (some 2) s2
      ∧ (⟨.signedPacked, 1, 0o2010⟩ : Dec).read s2 = .ok (some 3) s3
      ∧ ddesc a.fst a.snd .packed = some ⟨.signedPacked, 1, 0o2000⟩
      ∧ ddesc b.fst b.snd .packed = some ⟨.signedPacked, 1, 0o2010⟩
      ∧ ddesc c.fst c.snd .packed = some ⟨.signedPacked, 1, 0o2020⟩
      ∧ s3.forbiddenOverlap .never ⟨.signedPacked, 1, 0o2000⟩ ⟨.signedPacked, 1, 0o2020⟩ = false
      ∧ s3.forbiddenOverlap .coincident ⟨.signedPacked, 1, 0o2010⟩ ⟨.signedPacked, 1, 0o2020⟩ = false
      ∧ storeBytes 0o2020 (decResult .signedPacked 1 5).1 s3 = .ok p t)
      ∧ (∃ s1, (⟨.signedPacked, 1, 0o2000⟩ : Dec).read (bytesIn [(0o2000, 0o014)] decimal) = .ok (some 0) s1)
      ∧ (∃ free s4 p t, anyBytes 1 decimal = .ok free s4 ∧ storeBytes 0o2020 free s4 = .ok p t)
      ∧ (∃ m, translate mapped.mode 0o17777 false mapped = .ok m mapped)
      ∧ decimal.forbiddenOverlap .never ⟨.signedPacked, 1, 0o2000⟩ ⟨.signedPacked, 3, 0o1777⟩ = true
      ∧ decimal.overlaps [0o2000] [0o2001, 0o2000] = true
      ∧ (∃ a b c s1, threeDescs .register (decimal.withReg .r0 0o40) = .ok ((a, b, c) : Desc × Desc × Desc) s1
        ∧ ddesc a.fst a.snd .packed = none)
      ∧ ∃ s1, (⟨.signedPacked, 1, 0o2004⟩ : Dec).read decimal = .ok none s1 :=
  ⟨⟨_, _, _, _, _, _, _, _, rfl, rfl, rfl, rfl, rfl, rfl, by decide +kernel, by decide +kernel, rfl⟩, ⟨_, rfl⟩,
   ⟨_, _, _, _, rfl, rfl⟩, ⟨_, rfl⟩, by decide +kernel, by decide +kernel, ⟨_, _, _, _, rfl, rfl⟩, _, rfl⟩

/-- Each form's operands: a pair, a shift of the largest round and count, a long integer. -/
theorem witness_DecimalConversions :
    (∃ a b s1 s2, descPair .register decimal = .ok ((a, b) : Desc × Desc) s1
      ∧ ddesc a.fst a.snd .packed = some ⟨.signedPacked, 1, 0o2000⟩
      ∧ (⟨.signedPacked, 1, 0o2000⟩ : Dec).read s1 = .ok (some 2) s2)
      ∧ (∃ a b s1, shiftOps .register (decimal.withReg .r4 0o4777) = .ok ((a, b, 0o4777) : Desc × Desc × Word) s1)
      ∧ (0o4777 : Word).toNat < 0o5000
      ∧ (∃ a q s1, toLongOps .register decimal = .ok ((a, q) : Desc × Word) s1)
      ∧ (∃ p t, putLong .register 0 { hi := 0, lo := 2 } decimal = .ok p t)
      ∧ (∃ a l s1, fromLongOps .register decimal = .ok ((a, l) : Desc × Long) s1)
      ∧ (∃ t u p q, writeWord 0o2020 2 decimal = .ok p t ∧ writeWord 0o2022 0 t = .ok q u)
      ∧ (∃ a b sd s1, shiftOps .register (decimal.withReg .r4 0o10000) = .ok ((a, b, sd) : Desc × Desc × Word) s1
        ∧ sd &&& 0o170000 ≠ 0)
      ∧ (9 < (0o5000 : Word).toNat / 256 % 16 ∧ (0o5000 : Word) &&& 0o170000 = 0)
      ∧ (∃ s1, (⟨.signedPacked, 1, 0o2004⟩ : Dec).read decimal = .ok none s1)
      ∧ decimal.forbiddenOverlap .never ⟨.signedPacked, 1, 0o2000⟩ ⟨.signedPacked, 1, 0o2000⟩ = true
      ∧ ∃ p t, putLong .register 0 { hi := Config.freeWord 0, lo := Config.freeWord 1 } { decimal with free := 2 } = .ok p t :=
  ⟨⟨_, _, _, _, rfl, rfl, rfl⟩, ⟨_, _, _, rfl⟩, by decide, ⟨_, _, _, rfl⟩, ⟨_, _, rfl⟩, ⟨_, _, _, rfl⟩,
   ⟨_, _, _, _, rfl, rfl⟩, ⟨_, _, _, _, rfl, by decide⟩, by decide, ⟨_, rfl⟩, by decide +kernel, _, _, rfl⟩

/-- A string that is read, a descriptor of each class, a negative value that fits in a signed type, the least that does not,
and an unsigned type. -/
theorem witness_DecimalRoundTrip :
    (∃ bytes t, readBytes (byteAddrs 0o2000 (DecType.signedPacked.size 1)) decimal = .ok bytes t)
    ∧ (ddesc 0o60001 0o2000 .packed = some ⟨.signedPacked, 1, 0o2000⟩ ∧ ddesc 0o37 5 .numeric = some ⟨.signedZoned, 31, 5⟩)
    ∧ (-999 : Int).natAbs < 10 ^ 3 ∧ 10 ^ 3 ≤ (-1000 : Int).natAbs
    ∧ DecType.signedZoned.signed = true ∧ DecType.unsignedPacked.signed = false :=
  ⟨⟨_, _, rfl⟩, ⟨rfl, rfl⟩, by decide⟩

/-- Descriptors that cannot be read, of L2Dr and of an in-line form; an in-line word that cannot be fetched. A string that
cannot be read, moved, or stored, with a table and without; one that cannot be searched, compared or matched. -/
theorem witness_CharacterAbort :
    (astray.cfg.cisPresent = true ∧ astray.ps.getLsbD 8 = false)
      ∧ (∃ a v u, readReg .r0 astray = .ok a v ∧ readWord a v = .error (.abort .timeout) u)
      ∧ (∃ s a v q w u, readReg .r1 s = .ok a v ∧ readWord a v = .ok q w ∧ descsFail .timeout [q] w u)
      ∧ (∃ s a v q x lo y hi w u, readReg .r1 s = .ok a v ∧ readWord a v = .ok q x ∧ readWord q x = .ok lo y
        ∧ readWord (q + 2) y = .ok hi w ∧ readWord (a + 2) w = .error (.abort .timeout) u)
      ∧ (∃ s u, fetchFails .timeout 3 s u)
      ∧ (∃ s a b t u, fetchesWords [a, b] s t ∧ descsFail .timeout [a, b] t u)
      ∧ (∃ s m s1 u, moveOps .register false s = .ok m s1 ∧ highByte m.fill = 0
        ∧ readBytes (byteAddrs m.src.snd 2) s1 = .error (.abort .timeout) u)
      ∧ (∃ s m s1 bytes s2 u, moveOps .register false s = .ok m s1 ∧ highByte m.fill = 0
        ∧ readBytes (byteAddrs m.src.snd 2) s1 = .ok bytes s2 ∧ storeBytes m.dst.snd bytes s2 = .error (.abort .timeout) u)
      ∧ (∃ s m s1 bytes s2 u, moveOps .register true s = .ok m s1 ∧ highByte m.fill = 0 ∧ s1.tableReadable m.table = true
        ∧ s1.overlaps (byteAddrs m.dst.snd m.dst.fst.toNat) (byteAddrs m.table 256) = false
        ∧ readBytes (byteAddrs m.src.snd 2) s1 = .ok bytes s2
        ∧ storeTranslated m.table m.dst.snd bytes s2 = .error (.abort .timeout) u)
      ∧ (∃ s src w s1 u, charSearchOps .register s = .ok ((src, w) : Desc × Word) s1 ∧ highByte w = 0
        ∧ searchFrom (fun b => pure (b == 1)) 0 (byteAddrs src.snd src.fst.toNat) s1 = .error (.abort .timeout) u
        ∧ searchFrom (fun b => pure (b != 0)) 0 (byteAddrs src.snd src.fst.toNat) s1 = .error (.abort .timeout) u)
      ∧ (∃ s a b w s1 u, compareOps .register s = .ok ((a, b, w) : Desc × Desc × Word) s1 ∧ highByte w = 0
        ∧ compareFrom a b (lowByte w) 2 0 s1 = .error (.abort .timeout) u)
      ∧ ∃ s a b s1 u, twoDescs .register .r2 .r3 s = .ok ((a, b) : Desc × Desc) s1
        ∧ matchFrom a b 1 0 s1 = .error (.abort .timeout) u :=
  ⟨⟨rfl, rfl⟩, ⟨_, _, _, rfl, rfl⟩,
   ⟨machine 0 [(.r1, 0o2000)] [(0o2000, 0o160000)], _, _, _, _, _, rfl, rfl, Or.inl rfl⟩,
   ⟨machine 0 [(.r1, 0o157776)] [], _, _, _, _, _, _, _, _, _, rfl, rfl, rfl, rfl, rfl⟩,
   ⟨astray.withReg .pc 0o157776, _, Or.inr ⟨_, _, rfl, Or.inl rfl⟩⟩,
   ⟨machine 0 [] [(0o1000, 0o2000), (0o1002, 0o160000)], _, _, _, _, ⟨_, rfl, _, rfl, rfl⟩,
    Or.inr ⟨_, _, rfl, Or.inr ⟨_, _, rfl, Or.inl rfl⟩⟩⟩,
   ⟨withWords astray [(.r0, 2), (.r1, 0o157777)], _, _, _, rfl, rfl, rfl⟩,
   ⟨withWords astray [(.r0, 2), (.r3, 0o157777)], _, _, _, _, _, rfl, rfl, rfl, rfl⟩,
   ⟨withWords astray [(.r0, 2), (.r3, 0o157777)], _, _, _, _, _, rfl, rfl, by decide +kernel, by decide +kernel, rfl, rfl⟩,
   ⟨withWords astray [(.r0, 2), (.r1, 0o157777)], _, _, _, _, rfl, rfl, rfl, rfl⟩,
   ⟨withWords astray [(.r0, 2), (.r1, 0o157777)], _, _, _, _, _, rfl, rfl, rfl⟩,
   withWords astray [(.r0, 2), (.r1, 0o157777)], _, _, _, _, rfl, rfl⟩

/-- A packed source that cannot be read, first and second; a result, free bytes and a long integer that cannot be stored. -/
theorem witness_DecimalAbort :
    (∃ s u, (⟨.signedPacked, 1, 0o160000⟩ : Dec).read s = .error (.abort .timeout) u)
      ∧ (∃ s a b c s1, threeDescs .register s = .ok ((a, b, c) : Desc × Desc × Desc) s1
        ∧ ddesc a.fst a.snd .packed = some ⟨.signedPacked, 1, 0o2000⟩
        ∧ ddesc b.fst b.snd .packed = some ⟨.signedPacked, 1, 0o2010⟩
        ∧ ddesc c.fst c.snd .packed = some ⟨.signedPacked, 1, 0o160000⟩
        ∧ ∃ v1 s2 v2 s3, (⟨.signedPacked, 1, 0o2000⟩ : Dec).read s1 = .ok (some v1) s2
          ∧ (⟨.signedPacked, 1, 0o2010⟩ : Dec).read s2 = .ok (some v2) s3
          ∧ (∃ u, storeBytes 0o160000 (decResult .signedPacked 1 5).1 s3 = .error (.abort .timeout) u)
          ∧ ∃ free s4 u, anyBytes 1 s3 = .ok free s4 ∧ storeBytes 0o160000 free s4 = .error (.abort .timeout) u)
      ∧ (∃ a b s1, descPair .register decimal = .ok ((a, b) : Desc × Desc) s1)
      ∧ (∃ a b sd s1, shiftOps .register decimal = .ok ((a, b, sd) : Desc × Desc × Word) s1)
      ∧ (0o4777 : Word) &&& 0o170000 = 0
      ∧ (∃ a q s1, toLongOps .inLine decimal = .ok ((a, q) : Desc × Word) s1)
      ∧ (∃ s u, putLong .inLine 0o160000 { hi := 0, lo := 2 } s = .error (.abort .timeout) u)
      ∧ ∃ a l s1, fromLongOps .register decimal = .ok ((a, l) : Desc × Long) s1 :=
  ⟨⟨decimal, _, rfl⟩,
   ⟨decimal.withReg .r5 0o160000, _, _, _, _, rfl, rfl, rfl, rfl, _, _, _, _, rfl, rfl, ⟨_, rfl⟩, _, _, _, rfl, rfl⟩,
   ⟨_, _, _, rfl⟩, ⟨_, _, _, _, rfl⟩, by decide, ⟨_, _, _, rfl⟩, ⟨decimal, _, rfl⟩, _, _, _, rfl⟩

/-- Outside kernel mode; a floating trap that can be met, one that cannot, another trap, and a pending stack overflow; a mode
that can write nothing. -/
theorem witness_UnpredictableBounds : (machine 0o140000 [] []).mode ≠ .kernel
    ∧ (∃ t, manifestTrap 0o1000 .user (some (.floating 0)) ready = .error (.trap 0o244) t)
    ∧ (∃ t, manifestTrap 0o1000 .user (some (.floating 3)) ready = .ok ⟨⟩ t)
    ∧ (∃ e t, e ≠ .trap 0o244 ∧ manifestTrap 0o1000 .user (some (.vector 0)) ready = .error e t)
    ∧ manifestTrap 0o1000 .kernel (some (.stackOverflow 0o376)) ready
      = .ok ⟨⟩ { ready with pend := { ready.pend with stkovf := true } }
    ∧ manifestTrap 0o1000 .kernel (some (.stackOverflow 0o400)) ready = .ok ⟨⟩ ready
    ∧ (∃ s : State, s.mode ≠ .kernel ∧ s.mem.wf = true ∧ ∀ va m, translate s.mode va true s ≠ .ok m s)
    ∧ after { ready with pend := { ready.pend with stkovf := true } } (fun t => t.regs.ksp == 0o764) = true :=
  ⟨by decide, ⟨_, rfl⟩, ⟨_, rfl⟩, ⟨.trap 4, _, by decide, rfl⟩, rfl, rfl,
   ⟨{ mapped with ps := 0o100000 }, by decide, by decide +kernel, fun _ _ h => nomatch h⟩, by decide +kernel⟩

/-- Both units there; a character and the ends of the inputs; a transmitter that is ready, counting, and done. -/
theorem witness_ConsoleAndOdt :
    (∃ g, busGrant ready = .ok ⟨⟩ g) ∧ ready.mmu.sr0.getLsbD 0 = false
    ∧ (ready.cfg.dl1Disable = false ∧ ready.cfg.dl2Disable = false) ∧ ready.cfg.fpPresent = true
    ∧ ({ ready with inputs := [.receive .second 0o101 true false false] } : State).inputs
      = .receive .second 0o101 true false false :: []
    ∧ (ready.run ≠ .poweredDown ∧ ready.inputs.headD .quiet = .quiet ∧ (ready.slu .second).txRdy = true)
    ∧ (∃ s : State, s.run ≠ .poweredDown ∧ s.inputs.headD .quiet = .quiet ∧ (s.slu .console).txRdy = false
      ∧ 0 < (s.slu .console).txTimer)
    ∧ (∃ s : State, s.run ≠ .poweredDown ∧ s.inputs.headD .quiet = .quiet ∧ (s.slu .console).txRdy = false
      ∧ (s.slu .console).txTimer = 0)
    ∧ ({ ready with inputs := [.clockEdge, .breakEnd, .bhalt true] } : State).inputs.length = 3 :=
  ⟨⟨_, rfl⟩, rfl, ⟨rfl, rfl⟩, rfl, rfl, by decide,
   ⟨{ ready with slu1 := { ready.slu1 with txRdy := false, txTimer := 3 } }, by decide⟩,
   ⟨{ ready with slu1 := { ready.slu1 with txRdy := false, txTimer := 0 } }, by decide⟩, rfl⟩

/-- ODT with an open bus address and a number typed. -/
def typing (st : OdtState) (l : OdtLoc) (todo : List OdtOp) : Odt :=
  { state := st, opened := some l, last := some l, num := 0o12345, haveNum := true, desig := some (.digit 5), dumpHi := none,
    todo := todo }

/-- Each action and each kind of character: read, printed, opened with and without an answer, stored with and without one;
a digit, every command, and a character that is none. -/
theorem witness_OdtCommands : ready.quiet = true ∧ ready.cfg.dl1Disable = false
    ∧ (tick { ready with run := .halted }).run = .halted
    ∧ (typing .s7 (.bus 0o2000) []).todo = [] ∧ ready.slu1.rxDone = false ∧ ready.slu1.txRdy = true
    ∧ (∃ v u, readOdtLoc (.bus 0o2001) ready = .ok (some v) u) ∧ (∃ u, readOdtLoc (.bus 0o777700) ready = .ok none u)
    ∧ (∃ u, writeOdtLoc (.bus 0o2000) 5 ready = .ok (some ⟨⟩) u) ∧ (∃ u, writeOdtLoc (.bus 0o777700) 5 ready = .ok none u)
    ∧ plainMemory ready 0o757776 = true
    ∧ ((0o267 : Byte) &&& 0o177 = 0o60 + (7 : BitVec 3).setWidth 8)
    ∧ ((typing .s7 (.bus 0o2000) []).opened = some (.bus 0o2000) ∧ (typing .s6 .ps []).desig = some (.digit 5))
    ∧ (∀ d : BitVec 3, (0o70 : Byte) &&& 0o177 ≠ 0o60 + d.setWidth 8)
    ∧ (∃ w u, busRead ((0o2001 : Word).setWidth 22) ready = .ok w u)
    ∧ (∃ s e u, busRead ((0o177700 : Word).setWidth 22) s = .error e u)
    ∧ (typing .s10 .ps []).dumpHi = none :=
  ⟨rfl, rfl, rfl, rfl, rfl, rfl, ⟨_, _, rfl⟩, ⟨_, rfl⟩, ⟨_, rfl⟩, ⟨_, rfl⟩, by decide +kernel, by decide, ⟨rfl, rfl⟩, by decide,
   ⟨_, _, rfl⟩, ⟨{ ready with cfg := { Config.factory with ram := [] } }, _, _, rfl⟩, rfl⟩

end Sys2Proof.Tests
end

namespace Sys2Proof.Machine

/-! The invariants of every step: the platform's parameters, the justified interrupt channels and the unimplemented bits.

`Keeps s t` says what is kept between two states, `Kept x` that a computation keeps it however it ends. Each operation of the
processor gets one lemma `kept_…`, made from those of its parts along the computation; the step is made of them. -/

/-! The bits a register implements. -/

theorem within_iff {M w : Word} : within M w = true ↔ ∀ i : Nat, w.getLsbD i = true → M.getLsbD i = true := by
  simp only [within, beq_iff_eq]
  constructor
  · intro h i hi
    have hb := congrArg (fun x : Word => x.getLsbD i) h
    simpa [hi, (BitVec.lt_of_getLsbD hi)] using hb
  · intro h
    refine BitVec.eq_of_getLsbD_eq fun i hi => ?_
    have hb := h i
    simp only [BitVec.getLsbD_and, BitVec.getLsbD_not]
    cases hw : w.getLsbD i <;> simp_all

theorem within_trans {M N w : Word} (hM : within M N = true) (hw : within N w = true) : within M w = true :=
  within_iff.mpr fun i hi => within_iff.mp hM i (within_iff.mp hw i hi)

theorem within_and_left {M v w : Word} (h : within M v = true) : within M (v &&& w) = true := by
  refine within_iff.mpr fun i hi => within_iff.mp h i ?_
  simp only [BitVec.getLsbD_and, Bool.and_eq_true] at hi
  exact hi.1

theorem within_and_right {M v w : Word} (h : within M w = true) : within M (v &&& w) = true := by
  rw [BitVec.and_comm]
  exact within_and_left h

theorem within_or {M v w : Word} (hv : within M v = true) (hw : within M w = true) : within M (v ||| w) = true := by
  refine within_iff.mpr fun i hi => ?_
  simp only [BitVec.getLsbD_or, Bool.or_eq_true] at hi
  exact hi.elim (within_iff.mp hv i) (within_iff.mp hw i)

/-- A masked write reaches the bits of its mask alone. -/
theorem within_merge {M mask new old : Word} (hm : within M mask = true) (ho : within M old = true) :
    within M (merge mask new old) = true :=
  within_or (within_and_left ho) (within_and_right hm)

/-! What every step keeps. -/

/-- The registers of the MMU set no bit they do not implement (spec/10_state.md R45, R47, R49, R53). -/
structure Mmu.Sound (m : Mmu) : Prop where
  sr0 : within sr0Implemented m.sr0 = true
  sr3 : within sr3Writable m.sr3 = true
  kpdr : m.kpdr.all (within pdrImplemented) = true
  updr : m.updr.all (within pdrImplemented) = true

/-- What each change of the state keeps: the platform's parameters, the justification of the interrupt requests of each
serial-line unit, and every part of `State.sound`. -/
structure Keeps (s t : State) : Prop where
  cfg : t.cfg = s.cfg
  slu : ∀ u, (s.slu u).requestsJustified = true → (t.slu u).requestsJustified = true
  mem : s.mem.wf = true → t.mem.wf = true
  ps : within psImplemented s.ps = true → within psImplemented t.ps = true
  mmu : s.mmu.Sound → t.mmu.Sound
  fps : within fpsImplemented s.fpp.fps = true → within fpsImplemented t.fpp.fps = true
  pcr : within pcrWritable s.board.pcr = true → within pcrWritable t.board.pcr = true

theorem sound_iff (s : State) : s.sound = true ↔
    s.mem.wf = true ∧ within psImplemented s.ps = true ∧ s.mmu.Sound ∧ within fpsImplemented s.fpp.fps = true
      ∧ within pcrWritable s.board.pcr = true := by
  simp only [State.sound, Bool.and_eq_true]
  constructor
  · rintro ⟨⟨⟨⟨⟨⟨⟨hmem, hps⟩, h0⟩, h3⟩, hk⟩, hu⟩, hf⟩, hp⟩
    exact ⟨hmem, hps, ⟨h0, h3, hk, hu⟩, hf, hp⟩
  · rintro ⟨hmem, hps, ⟨h0, h3, hk, hu⟩, hf, hp⟩
    exact ⟨⟨⟨⟨⟨⟨⟨hmem, hps⟩, h0⟩, h3⟩, hk⟩, hu⟩, hf⟩, hp⟩

/-- Soundness is the last five parts. -/
theorem Keeps.sound {s t : State} (h : Keeps s t) (hs : s.sound = true) : t.sound = true := by
  obtain ⟨hmem, hps, hmmu, hfps, hpcr⟩ := (sound_iff s).mp hs
  exact (sound_iff t).mpr ⟨h.mem hmem, h.ps hps, h.mmu hmmu, h.fps hfps, h.pcr hpcr⟩

theorem Keeps.refl (s : State) : Keeps s s := ⟨rfl, fun _ h => h, id, id, id, id, id⟩

theorem Keeps.trans {s t u : State} (h : Keeps s t) (h' : Keeps t u) : Keeps s u where
  cfg := h'.cfg.trans h.cfg
  slu x := h'.slu x ∘ h.slu x
  mem := h'.mem ∘ h.mem
  ps := h'.ps ∘ h.ps
  mmu := h'.mmu ∘ h.mmu
  fps := h'.fps ∘ h.fps
  pcr := h'.pcr ∘ h.pcr

/-- A change of the PS that reaches implemented bits alone. -/
theorem keeps_merge_ps {mask : Word} (h : within psImplemented mask = true) (v : Word) (s : State) :
    Keeps s { s with ps := merge mask v s.ps } :=
  { Keeps.refl s with ps := within_merge h }

theorem keeps_withReg (r : Reg) (w : Word) (s : State) : Keeps s (s.withReg r w) := { Keeps.refl s with }

theorem keeps_granted (s : State) : Keeps s s.granted :=
  { Keeps.refl s with mem := granted_wf }

theorem slu_withSlu (s : State) (u v : Unit2) (x : Slu) : (s.withSlu u x).slu v = if v = u then x else s.slu v := by
  cases u <;> cases v <;> rfl

/-- A serial-line unit replaced by one whose requests are justified whenever the old one's were. -/
theorem keeps_withSlu {s : State} {u : Unit2} {x : Slu}
    (h : (s.slu u).requestsJustified = true → x.requestsJustified = true) : Keeps s (s.withSlu u x) := by
  have hrest : s.withSlu u x = { s with slu1 := (s.withSlu u x).slu1, slu2 := (s.withSlu u x).slu2 } := by
    cases u <;> rfl
  have hslu : ∀ v, (s.slu v).requestsJustified = true → ((s.withSlu u x).slu v).requestsJustified = true := by
    intro v hv
    rw [slu_withSlu]
    split
    · rename_i huv
      exact h (huv ▸ hv)
    · exact hv
  rw [hrest] at hslu ⊢
  exact { Keeps.refl s with slu := hslu }

/-- Settled channels hold justified requests, whatever was there before (spec/60_exceptions.md R750). -/
theorem settle_justified (old new : Slu) : (old.settle new).requestsJustified = true := by
  unfold Slu.requestsJustified Slu.settle channel
  generalize (old.rxDone && old.rxIE) = r, (old.txRdy && old.txIE) = t
  cases new.rxDone <;> cases new.rxIE <;> cases new.txRdy <;> cases new.txIE <;> simp

end Sys2Proof.Machine

namespace Sys2Proof.Machine

variable {α β : Type}

/-- The state a computation leaves, answered or stopped. -/
def stateOf : EStateM.Result Stop State α → State
  | .ok _ t => t
  | .error _ t => t

/-- Whether it answers or stops, the computation keeps what `Keeps` names. -/
def Kept (x : M α) : Prop := ∀ s, Keeps s (stateOf (x s))

theorem Kept.ok {x : M α} (h : Kept x) {s t : State} {a : α} (hx : x s = .ok a t) : Keeps s t := by
  simpa only [hx, stateOf] using h s

theorem Kept.error {x : M α} (h : Kept x) {s t : State} {e : Stop} (hx : x s = .error e t) : Keeps s t := by
  simpa only [hx, stateOf] using h s

@[simp] theorem kept_pure (a : α) : Kept (pure a : M α) := Keeps.refl

@[simp] theorem kept_throw (e : Stop) : Kept (throw e : M α) := Keeps.refl

@[simp] theorem kept_get : Kept (get : M State) := Keeps.refl

@[simp] theorem Kept.bind {x : M α} {f : α → M β} (hx : Kept x) (hf : ∀ a, Kept (f a)) : Kept (x >>= f) := by
  intro s
  rw [run_bind]
  cases h : x s with
  | ok a t => exact (hx.ok h).trans (hf a t)
  | error e t => exact hx.error h

/-- A computation that leaves the states another one leaves. -/
theorem Kept.congr {x : M α} {y : M β} (hy : Kept y) (h : ∀ s, stateOf (x s) = stateOf (y s)) : Kept x := by
  intro s
  rw [h s]
  exact hy s

@[simp] theorem kept_map {x : M α} {f : α → β} (hx : Kept x) : Kept (f <$> x) := by
  intro s
  rw [run_map]
  cases h : x s with
  | ok a t => exact hx.ok h
  | error e t => exact hx.error h

@[simp] theorem kept_ite {c : Prop} [Decidable c] {x y : M α} (hx : Kept x) (hy : Kept y) : Kept (if c then x else y) := by
  split
  · exact hx
  · exact hy

@[simp] theorem kept_modify {f : State → State} (h : ∀ s, Keeps s (f s)) : Kept (modify f : M Unit) := h

@[simp] theorem kept_nextFree : Kept nextFree := fun s => { Keeps.refl s with }

/-! Bus cycles. -/

/-- A write cycle that is not answered changes nothing (spec/20_memory.md R140). -/
theorem writeCycle_error {pa : PAddr} {lane : Lane} {v : Word} {s t : State} {e : Stop}
    (h : writeCycle pa lane v s = .error e t) : t = s ∧ e = .abort .timeout ∧ busAnswers s.cfg pa = false := by
  simp only [writeCycle, run_bind, run_get] at h
  simp only [busAnswers]
  cases hio : isIoPage pa with
  | true =>
    simp only [hio, if_true] at h ⊢
    cases hd : ioDecode s.cfg pa with
    | none =>
      simp only [hd] at h
      cases h
      exact ⟨rfl, rfl, rfl⟩
    | some r =>
      obtain ⟨t', hr, _⟩ := writeIo_ok r lane v s
      simp only [hd, hr] at h
      cases h
  | false =>
    simp only [hio, Bool.false_eq_true, if_false] at h ⊢
    split at h
    · cases h
    · rename_i hp
      cases h
      exact ⟨rfl, rfl, by simpa using hp⟩

@[simp] theorem kept_busGrant : Kept busGrant := by
  intro s
  rw [busGrant_run]
  split
  · exact Keeps.refl s
  · exact keeps_granted s

@[simp] theorem kept_readIo (r : IoReg) : Kept (readIo r) := by
  intro s
  cases r with
  | rbuf u => exact keeps_withSlu fun _ => settle_justified _ _
  | pcr => exact { Keeps.refl _ with }
  | _ => exact Keeps.refl s

theorem Mmu.Sound.withPar {m : Mmu} (h : m.Sound) (p : PageSet) (n : Fin 8) (w : Word) : (m.withPar p n w).Sound := by
  cases p <;> exact ⟨h.sr0, h.sr3, h.kpdr, h.updr⟩

theorem all_set {p : Word → Bool} {v : Vector Word 8} (hv : v.all p = true) (n : Fin 8) {w : Word} (hw : p w = true) :
    (v.set n w).all p = true := by
  rw [Vector.all_eq_true] at hv ⊢
  intro i hi
  rw [Vector.getElem_set]
  split
  · exact hw
  · exact hv i hi

theorem Mmu.Sound.withPdr {m : Mmu} (h : m.Sound) (p : PageSet) (n : Fin 8) {w : Word}
    (hw : within pdrImplemented w = true) : (m.withPdr p n w).Sound := by
  cases p with
  | kernel => exact ⟨h.sr0, h.sr3, all_set h.kpdr n hw, h.updr⟩
  | user => exact ⟨h.sr0, h.sr3, h.kpdr, all_set h.updr n hw⟩

theorem Mmu.Sound.pdr {m : Mmu} (h : m.Sound) (p : PageSet) (n : Fin 8) : within pdrImplemented (m.pdr p n) = true := by
  cases p with
  | kernel => exact Vector.all_eq_true.mp h.kpdr n n.isLt
  | user => exact Vector.all_eq_true.mp h.updr n n.isLt

/-- A mask cut to its implemented bits by a lane stays within them. -/
theorem within_lane {M mask : Word} (h : within M mask = true) (lane : Lane) : within M (lane.mask &&& mask) = true :=
  within_and_right h

@[simp] theorem kept_writeIo (r : IoReg) (lane : Lane) (v : Word) : Kept (writeIo r lane v) := by
  intro s
  cases r with
  | ps => exact keeps_merge_ps (within_lane (by decide) lane) v s
  | sr0 =>
    exact { Keeps.refl _ with mmu := fun h => { h with sr0 := within_merge (within_lane (by decide) lane) h.sr0 } }
  | sr3 =>
    exact { Keeps.refl _ with mmu := fun h => { h with sr3 := within_merge (within_lane (by decide) lane) h.sr3 } }
  | par p n =>
    exact { Keeps.refl _ with mmu := fun h => (h.withPar p n _).withPdr p n (within_and_left ((h.withPar p n _).pdr p n)) }
  | pdr p n =>
    exact { Keeps.refl _ with
      mmu := fun h => h.withPdr p n (within_and_left (within_merge (within_lane (by decide) lane) (h.pdr p n))) }
  | pcr => exact { Keeps.refl _ with pcr := within_merge (within_lane (by decide) lane) }
  | rwr => exact { Keeps.refl _ with }
  | cdr | lks =>
    simp only [writeIo, run_bind, run_get]
    cases lane.hasLow <;> exact { Keeps.refl _ with }
  | rcsr u | tcsr u =>
    simp only [writeIo, run_bind, run_get]
    cases lane.hasLow
    · exact Keeps.refl s
    · exact keeps_withSlu fun _ => settle_justified _ _
  | tbuf u =>
    simp only [writeIo, run_bind, run_get]
    cases lane.hasLow
    · exact Keeps.refl s
    · refine Keeps.trans (t := { s with free := s.free + 1 }) { Keeps.refl _ with } ?_
      exact keeps_withSlu fun _ => settle_justified _ _
  | sr1 | sr2 | rom _ | rbuf _ => exact Keeps.refl s

@[simp] theorem kept_readCycle (pa : PAddr) : Kept (readCycle pa) := by
  refine .bind kept_get fun s => ?_
  refine kept_ite ?_ (by simp)
  cases ioDecode s.cfg pa <;> simp

@[simp] theorem kept_writeCycle (pa : PAddr) (lane : Lane) (v : Word) : Kept (writeCycle pa lane v) := by
  intro s
  cases h : writeCycle pa lane v s with
  | ok a t =>
    rcases writeCycle_ok h with ⟨_, r, _, hr⟩ | ⟨_, _, rfl⟩
    · exact (kept_writeIo r lane v).ok hr
    · exact { Keeps.refl _ with mem := Memory.wf_writeLane _ _ _ }
  | error e t => rw [(writeCycle_error h).1]; exact Keeps.refl s

@[simp] theorem kept_busRead (pa : PAddr) : Kept (busRead pa) :=
  .bind (by simp) fun _ => by simp

@[simp] theorem kept_busWrite (pa : PAddr) (lane : Lane) (v : Word) : Kept (busWrite pa lane v) :=
  .bind (by simp) fun _ => by simp

/-! The memory management unit. -/

/-- An abort sets flags of SR0<15:13>, and with them the mode and the page (spec/20_memory.md R127). -/
theorem kept_abortMmu {flags : Word} (h : within abortFlags flags = true) (mode : Mode) (va : Word) :
    Kept (abortMmu flags mode va : M α) := by
  have hflags : within sr0Implemented flags = true := within_trans (by decide) h
  refine .bind (kept_modify fun s => { Keeps.refl _ with mmu := fun hs => { hs with sr0 := ?_ } }) fun _ => kept_throw _
  unfold sr0AfterAbort
  split
  · exact within_or (within_merge (by decide) hs.sr0) hflags
  · exact within_or hs.sr0 hflags

theorem within_pageFlags (pdr va : Word) (write : Bool) : within abortFlags (pageFlags pdr va write) = true := by
  refine within_or (within_or ?_ ?_) ?_ <;> split <;> decide

@[simp] theorem kept_translate (mode : Mode) (va : Word) (write : Bool) : Kept (translate mode va write) := by
  refine .bind kept_get fun s => kept_ite ?_ (by simp)
  cases pageSetOf mode with
  | none => exact kept_abortMmu (by decide) mode va
  | some p => exact kept_ite (kept_pure _) (kept_abortMmu (within_pageFlags _ va write) mode va)

@[simp] theorem kept_markWritten (page : Option (PageSet × Fin 8)) : Kept (markWritten page) := by
  rcases page with _ | ⟨p, n⟩
  · exact kept_pure _
  · exact kept_modify fun s => { Keeps.refl _ with mmu := fun h => h.withPdr p n (within_or (h.pdr p n) (by decide)) }

@[simp] theorem kept_writeBack (m : Mapped) (size : Size) (v : Word) : Kept (writeBack m size v) :=
  .bind (by simp) fun _ => kept_ite (by simp) (by simp)

@[simp] theorem kept_storeMapped (m : Mapped) (size : Size) (v : Word) : Kept (storeMapped m size v) :=
  .bind (by simp) fun _ => by simp

@[simp] theorem kept_readWordIn (mode : Mode) (va : Word) : Kept (readWordIn mode va) :=
  .bind (by simp) fun _ => by simp

@[simp] theorem kept_readByteIn (mode : Mode) (va : Word) : Kept (readByteIn mode va) :=
  .bind (by simp) fun _ => by simp

@[simp] theorem kept_writeWordIn (mode : Mode) (va v : Word) : Kept (writeWordIn mode va v) :=
  .bind (by simp) fun _ => by simp

@[simp] theorem kept_writeByteIn (mode : Mode) (va : Word) (b : Byte) : Kept (writeByteIn mode va b) :=
  .bind (by simp) fun _ => by simp

@[simp] theorem kept_readWord (va : Word) : Kept (readWord va) :=
  .bind (by simp) fun _ => by simp

@[simp] theorem kept_readByte (va : Word) : Kept (readByte va) :=
  .bind (by simp) fun _ => by simp

@[simp] theorem kept_writeWord (va v : Word) : Kept (writeWord va v) :=
  .bind (by simp) fun _ => by simp

@[simp] theorem kept_writeByte (va : Word) (b : Byte) : Kept (writeByte va b) :=
  .bind (by simp) fun _ => by simp

/-! Registers, the PS, the stack and the fetch. -/

@[simp] theorem kept_readSpOf (mode : Mode) : Kept (readSpOf mode) := by
  intro s
  rw [readSpOf_ok]
  cases mode <;> exact { Keeps.refl _ with }

@[simp] theorem kept_writeSpOf (mode : Mode) (w : Word) : Kept (writeSpOf mode w) := fun s => { Keeps.refl s with }

@[simp] theorem kept_readReg (r : Reg) : Kept (readReg r) := by
  cases r with
  | sp => exact .bind (by simp) fun _ => kept_readSpOf _
  | _ => exact .bind (by simp) fun _ => kept_pure _

@[simp] theorem kept_writeReg (r : Reg) (w : Word) : Kept (writeReg r w) := keeps_withReg r w

@[simp] theorem kept_nextWord (write : Bool) : Kept (nextWord write) :=
  .bind kept_get fun _ => .bind (kept_translate _ _ _) fun m =>
    .bind (kept_modify fun s => { Keeps.refl s with }) fun _ => kept_pure m

@[simp] theorem kept_fetchWord : Kept fetchWord :=
  .bind (by simp) fun _ => by simp

@[simp] theorem kept_storeNext (v : Word) : Kept (storeNext v) :=
  .bind (by simp) fun _ => by simp

@[simp] theorem kept_fetchOpcode : Kept fetchOpcode := by
  refine .bind kept_get fun _ => .bind kept_fetchWord fun w => .bind (kept_modify fun t => ?_) fun _ => kept_pure w
  split
  · exact Keeps.refl t
  · exact { Keeps.refl _ with mmu := fun h => { h with } }

@[simp] theorem kept_setCodes (wrotePs : Bool) (k : Codes) : Kept (setCodes wrotePs k) :=
  kept_ite (kept_pure _) (kept_modify (keeps_merge_ps (by decide) _))

@[simp] theorem kept_noteStackLimit (sp : Word) : Kept (noteStackLimit sp) := by
  refine kept_modify fun s => ?_
  split <;> exact { Keeps.refl _ with }

@[simp] theorem kept_push (v : Word) : Kept (push v) :=
  .bind (by simp) fun _ => by simp

@[simp] theorem kept_pop : Kept pop :=
  .bind (by simp) fun _ => by simp

/-! Operands. -/

@[simp] theorem kept_decrement (r : Reg) (n : Word) : Kept (decrement r n) :=
  .bind (by simp) fun _ => .bind (by simp) fun _ => by simp

@[simp] theorem kept_increment (r : Reg) (n : Word) : Kept (increment r n) :=
  .bind (by simp) fun _ => by simp

@[simp] theorem kept_indexed (r : Reg) : Kept (indexed r) :=
  .bind (by simp) fun _ => by simp

@[simp] theorem kept_evalField (sz : Nat) (o : Operand) : Kept (evalField sz o) := by
  obtain ⟨mode, r⟩ := o
  cases mode with
  | register => exact kept_pure _
  | registerDeferred => exact .bind (by simp) fun _ => kept_pure _
  | autoinc => exact .bind (by simp) fun _ => kept_pure _
  | autoincDeferred => exact .bind (by simp) fun _ => by simp
  | autodec => exact .bind (by simp) fun _ => kept_pure _
  | autodecDeferred => exact .bind (by simp) fun _ => by simp
  | index => exact .bind (by simp) fun _ => kept_pure _
  | indexDeferred => exact .bind (by simp) fun _ => by simp

@[simp] theorem kept_readLoc (l : Loc) : Kept (readLoc l) := by
  cases l with
  | reg r => exact kept_readReg r
  | mem ea => exact kept_readWord ea

@[simp] theorem kept_readLocByte (l : Loc) : Kept (readLocByte l) := by
  cases l with
  | reg r => exact .bind (by simp) fun _ => kept_pure _
  | mem ea => exact kept_readByte ea

@[simp] theorem kept_writeRegByte (r : Reg) (b : Byte) : Kept (writeRegByte r b) :=
  .bind (by simp) fun _ => by simp

@[simp] theorem kept_writeLoc (l : Loc) (v : Word) : Kept (writeLoc l v) := by
  cases l with
  | reg r => exact .bind (by simp) fun _ => kept_pure _
  | mem ea => exact kept_writeWord ea v

@[simp] theorem kept_writeLocByte (l : Loc) (b : Byte) : Kept (writeLocByte l b) := by
  cases l with
  | reg r => exact .bind (by simp) fun _ => kept_pure _
  | mem ea => exact kept_writeByte ea b

@[simp] theorem kept_codesNow : Kept codesNow :=
  .bind (by simp) fun _ => by simp

@[simp] theorem kept_setCodesOnly (k : Codes) : Kept (setCodesOnly k) := kept_setCodes false k

@[simp] theorem kept_modifyWord (l : Loc) (f : Codes → Word → AluResult 16) : Kept (modifyWord l f) := by
  cases l with
  | reg r => exact .bind (by simp) fun _ => by simp
  | mem ea =>
    exact .bind (by simp) fun _ => .bind (by simp) fun _ => .bind (by simp) fun _ => .bind (by simp) fun _ => by simp

@[simp] theorem kept_modifyByte (l : Loc) (f : Codes → Byte → AluResult 8) : Kept (modifyByte l f) := by
  cases l with
  | reg r => exact .bind (by simp) fun _ => by simp
  | mem ea =>
    exact .bind (by simp) fun _ => .bind (by simp) fun _ => .bind (by simp) fun _ => .bind (by simp) fun _ => by simp

@[simp] theorem kept_storeWord (l : Loc) (v : AluResult 16) : Kept (storeWord l v) :=
  .bind (by simp) fun _ => by simp

@[simp] theorem kept_storeByte (l : Loc) (v : AluResult 8) : Kept (storeByte l v) :=
  .bind (by simp) fun _ => by simp

@[simp] theorem kept_singleWord (o : Operand) (f : Codes → Word → AluResult 16) : Kept (singleWord o f) :=
  .bind (by simp) fun _ => by simp

@[simp] theorem kept_singleByte (o : Operand) (f : Codes → Byte → AluResult 8) : Kept (singleByte o f) :=
  .bind (by simp) fun _ => by simp

@[simp] theorem kept_sourceWord (o : Operand) : Kept (sourceWord o) := by
  refine .bind (kept_evalField 2 o) fun l => ?_
  cases l <;> simp

@[simp] theorem kept_sourceByte (o : Operand) : Kept (sourceByte o) := by
  refine .bind (kept_evalField 1 o) fun l => ?_
  cases l <;> simp

@[simp] theorem kept_source_word (x : Source Word) : Kept x.word := by
  cases x with
  | reg r => exact kept_readReg r
  | value v => exact kept_pure v

@[simp] theorem kept_source_byte (x : Source Byte) : Kept x.byte := by
  cases x with
  | reg r => exact .bind (by simp) fun _ => kept_pure _
  | value v => exact kept_pure v

@[simp] theorem kept_doubleWord {src dst : Operand} {k : Word → Loc → M Unit} (hk : ∀ v l, Kept (k v l)) :
    Kept (doubleWord src dst k) :=
  .bind (by simp) fun _ => .bind (by simp) fun l => .bind (by simp) fun v => hk v l

@[simp] theorem kept_doubleByte {src dst : Operand} {k : Byte → Loc → M Unit} (hk : ∀ v l, Kept (k v l)) :
    Kept (doubleByte src dst k) :=
  .bind (by simp) fun _ => .bind (by simp) fun l => .bind (by simp) fun v => hk v l

@[simp] theorem kept_operandWord (o : Operand) : Kept (operandWord o) :=
  .bind (by simp) fun _ => by simp

end Sys2Proof.Machine

namespace Sys2Proof.Machine

variable {α : Type}

/-! Exceptions. -/

theorem keeps_trapPs (old new : Word) (s : State) : Keeps s { s with ps := trapPs old new } :=
  { Keeps.refl s with ps := fun _ => within_merge (by decide) (within_and_right (by decide)) }

@[simp] theorem kept_pushTrap (kind : TrapKind) (v : Word) : Kept (pushTrap kind v) := by
  refine .bind (by simp) fun sp => .bind (by simp) fun _ => kept_ite (.bind (by simp) fun _ => ?_) ?_
  all_goals
    refine (kept_writeWord (sp - 2) v).congr fun s => ?_
    beta_reduce
    cases writeWord (sp - 2) v s with
    | ok a t => rfl
    | error e t => rcases e with (_ | _ | _) | _ | _ <;> rfl

@[simp] theorem kept_trapSequence (req : TrapRequest) : Kept (trapSequence req) := by
  refine .bind (kept_modify fun s => { Keeps.refl s with }) fun _ => .bind (by simp) fun newPs => .bind (by simp) fun old =>
    .bind (kept_modify (keeps_trapPs old.ps newPs)) fun _ => kept_ite (.bind (by simp) fun _ => ?_) ?_ <;>
  exact .bind (by simp) fun _ => .bind (by simp) fun _ => .bind (by simp) fun _ =>
    kept_modify fun s => { Keeps.refl s with }

/-- Taking an exception keeps what every step keeps, whether its references succeed or not. -/
theorem keeps_performTrap (req : TrapRequest) (s : State) : Keeps s (performTrap req s) := by
  rcases performTrap_cases req s with ⟨t, ht, h⟩ | ⟨e, t, ht, h⟩
  · rw [h]
    exact ((kept_trapSequence req).ok ht).trans { Keeps.refl _ with }
  · rw [h]
    exact ((kept_trapSequence req).error ht).trans { Keeps.refl _ with }

theorem keeps_sampleTrace (s : State) : Keeps s (sampleTrace s) := { Keeps.refl s with }

theorem keeps_inhibitTrace (s : State) : Keeps s (inhibitTrace s) := { Keeps.refl s with }

theorem keeps_completeTrap (s : State) : Keeps s (completeTrap s) := by
  unfold completeTrap
  split
  · exact keeps_sampleTrace s
  · exact Keeps.refl s

/-- However an instruction ends, its end keeps what its meaning keeps. -/
theorem keeps_finish {complete : State → State} (hc : ∀ s, Keeps s (complete s)) {x : M Unit} (hx : Kept x) (s : State) :
    Keeps s (finish complete (x s)) := by
  cases h : x s with
  | ok a t => exact (hx.ok h).trans (hc t)
  | error e t =>
    have ht := hx.error h
    cases e with
    | trap v => exact (ht.trans (keeps_performTrap _ t)).trans (keeps_completeTrap _)
    | abort k => exact ht.trans (keeps_performTrap _ t)
    | deadStack => exact ht.trans (keeps_performTrap _ t)

/-- An outcome keeps what `Keeps` names, if it is a next state. -/
def KeptBy (o : Host.Outcome State Fault Refusal) (s : State) : Prop := ∀ t, o = .next t → Keeps s t

theorem keptBy_next {s t : State} (h : Keeps s t) : KeptBy (.next t) s := by
  rintro _ ⟨⟩
  exact h

theorem keptBy_runInstr {x : M Unit} (hx : Kept x) (s : State) : KeptBy (runInstr x s) s :=
  keptBy_next (keeps_finish keeps_sampleTrace hx s)

theorem keptBy_runReturnTrace {x : M Unit} (hx : Kept x) (s : State) : KeptBy (runReturnTrace x s) s :=
  keptBy_next (keeps_finish keeps_inhibitTrace hx s)

@[simp] theorem kept_raiseTrap (v : Word) : Kept (raiseTrap v) := kept_throw _

@[simp] theorem kept_returnFromTrap : Kept returnFromTrap := by
  refine .bind (by simp) fun _ => .bind (by simp) fun _ => kept_modify fun s => ?_
  refine Keeps.trans (keeps_merge_ps (mask := returnMask s.mode) ?_ _ s) { Keeps.refl _ with }
  cases s.mode <;> decide

end Sys2Proof.Machine

namespace Sys2Proof.Machine

variable {α : Type}

/-! Branches, condition codes, jumps and moves of the PS. -/

@[simp] theorem kept_branchIf (cond : Codes → Bool) (offset : Byte) : Kept (branchIf cond offset) :=
  .bind (by simp) fun _ => kept_ite (kept_modify fun s => { Keeps.refl s with }) (kept_pure _)

@[simp] theorem kept_clearMask (mask : BitVec 4) : Kept (clearMask mask) :=
  kept_modify fun s => { Keeps.refl s with ps := within_and_left }

theorem within_setWidth_four (mask : BitVec 4) : within psImplemented (mask.setWidth 16) = true := by
  revert mask
  decide

@[simp] theorem kept_setMask (mask : BitVec 4) : Kept (setMask mask) :=
  kept_modify fun s => { Keeps.refl s with ps := fun h => within_or h (within_setWidth_four mask) }

@[simp] theorem kept_moveByte (dst : Operand) (b : Byte) (l : Loc) : Kept (moveByte dst b l) :=
  .bind (by simp) fun _ => kept_ite (by simp) (by simp)

@[simp] theorem kept_compareWord (src dst : Operand) (f : Codes → Word → Word → Codes) : Kept (compareWord src dst f) :=
  kept_doubleWord fun _ _ => by simp

@[simp] theorem kept_compareByte (src dst : Operand) (f : Codes → Byte → Byte → Codes) : Kept (compareByte src dst f) :=
  kept_doubleByte fun _ _ => by simp

@[simp] theorem kept_readPair (r : Reg) : Kept (readPair r) :=
  .bind (by simp) fun _ => by simp

@[simp] theorem kept_writePair (r : Reg) (hi lo : Word) : Kept (writePair r hi lo) :=
  .bind (by simp) fun _ => by simp

@[simp] theorem kept_jumpTo (pc : Word) : Kept (jumpTo pc) := kept_modify fun s => { Keeps.refl s with }

@[simp] theorem kept_jumpAddress (dst : Operand) : Kept (jumpAddress dst) := by
  refine .bind (by simp) fun l => ?_
  cases l <;> simp

@[simp] theorem kept_previousMode : Kept previousMode := .bind kept_get fun _ => kept_pure _

@[simp] theorem kept_readPrevReg (r : Reg) : Kept (readPrevReg r) :=
  kept_ite (.bind (by simp) fun _ => by simp) (by simp)

@[simp] theorem kept_writePrevReg (r : Reg) (w : Word) : Kept (writePrevReg r w) :=
  kept_ite (.bind (by simp) fun _ => by simp) (by simp)

@[simp] theorem kept_moveFromPrevious (src : Operand) : Kept (moveFromPrevious src) := by
  refine .bind (by simp) fun l => ?_
  cases l with
  | reg r => exact .bind (by simp) fun _ => by simp
  | mem ea =>
    exact .bind (by simp) fun _ => .bind (by simp) fun _ => by simp

@[simp] theorem kept_moveToPrevious (dst : Operand) : Kept (moveToPrevious dst) := by
  refine .bind (by simp) fun v => .bind (by simp) fun l => ?_
  cases l with
  | reg r => exact .bind (by simp) fun _ => by simp
  | mem ea => exact .bind (by simp) fun _ => by simp

@[simp] theorem kept_attempt {x : M α} (hx : Kept x) : Kept (attempt x) := by
  refine hx.congr fun s => ?_
  unfold attempt
  cases x s <;> rfl

@[simp] theorem kept_enterOdt : Kept enterOdt :=
  .bind (by simp) fun _ => kept_modify fun s => { Keeps.refl s with }

/-! Floating point. -/

theorem kept_mergeFps {mask : Word} (h : within fpsImplemented mask = true) (v : Word) : Kept (mergeFps mask v) :=
  kept_modify fun s => { Keeps.refl s with fps := within_merge h }

@[simp] theorem kept_setFcc (k : Codes) : Kept (setFcc k) := kept_mergeFps (by decide) _

@[simp] theorem kept_readAc (fmt : Fmt) (n : Fin 6) : Kept (readAc fmt n) := .bind kept_get fun _ => kept_pure _

@[simp] theorem kept_writeAc (fmt : Fmt) (n : Fin 6) (v : Quad) : Kept (writeAc fmt n v) :=
  kept_modify fun s => { Keeps.refl s with }

@[simp] theorem kept_fpException (fea : Word) (err : FpError) : Kept (fpException fea err) := by
  refine .bind (kept_modify fun s => ?_) fun _ => by simp
  exact { Keeps.refl s with fps := fun h => within_or h (by decide) }

@[simp] theorem kept_fpRaise (fea : Word) (e : Option FpError) : Kept (fpRaise fea e) := by
  cases e with
  | none => exact kept_pure _
  | some err => exact kept_fpException fea err

@[simp] theorem kept_fpAddress (sz : Nat) (o : Operand) : Kept (fpAddress sz o) := by
  refine kept_ite (.bind (by simp) fun _ => kept_pure _) (.bind (by simp) fun l => ?_)
  cases l <;> exact kept_pure _

@[simp] theorem kept_withFpLoc {fea : Word} {fmt : Fmt} {o : Operand} {k : FpLoc → M Unit} (hk : ∀ l, Kept (k l)) :
    Kept (withFpLoc fea fmt o k) := by
  refine kept_ite ?_ (.bind (by simp) hk)
  cases accOf o.reg with
  | none => exact kept_fpException _ _
  | some n => exact hk _

@[simp] theorem kept_readFp (fmt : Fmt) (a : Word) : Kept (readFp fmt a) := by
  refine .bind (by simp) fun _ => .bind (by simp) fun _ => ?_
  cases fmt <;> simp

@[simp] theorem kept_fpSource (fmt : Fmt) (o : Operand) : Kept (fpSource fmt o) := by
  refine kept_ite (.bind (by simp) fun _ => by simp) (.bind (by simp) fun l => ?_)
  cases l <;> simp

@[simp] theorem kept_withFpSource {fea : Word} {fmt : Fmt} {o : Operand} {k : FpLoc → Quad → M Unit}
    (hk : ∀ l v, Kept (k l v)) : Kept (withFpSource fea fmt o k) := by
  refine kept_ite ?_ (.bind (by simp) fun x => hk x.1 x.2)
  cases accOf o.reg with
  | none => exact kept_fpException _ _
  | some n => exact .bind (by simp) fun v => hk _ v

@[simp] theorem kept_writeFp (fmt : Fmt) (v : Quad) (l : FpLoc) : Kept (writeFp fmt v l) := by
  cases l with
  | acc n => exact kept_writeAc fmt n v
  | imm a => exact .bind (by simp) fun _ => kept_pure _
  | mem a =>
    refine .bind (by simp) fun _ => .bind (by simp) fun _ => ?_
    cases fmt <;> simp

@[simp] theorem kept_withFpOperand {fea : Word} {md : FpModes} {o : Operand} {k : Quad → M Unit} (hk : ∀ v, Kept (k v)) :
    Kept (withFpOperand fea md o k) :=
  kept_withFpSource fun _ v => kept_ite (by simp) (hk v)

@[simp] theorem kept_fpInstr {body : Word → FpModes → M Unit} (h : ∀ fea md, Kept (body fea md)) : Kept (fpInstr body) :=
  .bind kept_get fun _ => kept_ite (h _ _) (kept_throw _)

@[simp] theorem kept_deliverTo (fea : Word) (fmt : Fmt) (n : Fin 6) (r : Delivered) : Kept (deliverTo fea fmt n r) :=
  .bind (by simp) fun _ => by simp

@[simp] theorem kept_fpArith (ac : Ac) (o : Operand) (f : FpModes → Quad → Quad → Delivered) : Kept (fpArith ac o f) :=
  kept_fpInstr fun _ _ => kept_withFpOperand fun _ => by simp

@[simp] theorem kept_fpUnary (o : Operand) (f : Quad → Quad) : Kept (fpUnary o f) :=
  kept_fpInstr fun _ _ => kept_withFpSource fun _ _ => .bind (by simp) fun _ => by simp

@[simp] theorem kept_longLoc (o : Operand) : Kept (longLoc o) := by
  refine kept_ite (kept_pure _) (.bind (by simp) fun l => ?_)
  cases l <;> exact kept_pure _

@[simp] theorem kept_readLong (l : LongLoc) : Kept (readLong l) := by
  cases l with
  | reg r => exact .bind (by simp) fun _ => kept_pure _
  | imm => exact .bind (by simp) fun _ => kept_pure _
  | mem a => exact .bind (by simp) fun _ => by simp

@[simp] theorem kept_writeLong (hi lo : Word) (l : LongLoc) : Kept (writeLong hi lo l) := by
  cases l with
  | reg r => exact .bind (by simp) fun _ => kept_pure _
  | imm => exact kept_storeNext hi
  | mem a => exact .bind (by simp) fun _ => by simp

@[simp] theorem kept_readInteger (md : FpModes) (o : Operand) : Kept (readInteger md o) :=
  kept_ite (.bind (by simp) fun _ => by simp) (.bind (by simp) fun _ => kept_pure _)

@[simp] theorem kept_writeInteger (md : FpModes) (o : Operand) (r : Int) : Kept (writeInteger md o r) :=
  kept_ite (.bind (by simp) fun _ => by simp) (.bind (by simp) fun _ => by simp)

/-! Commercial instructions. -/

theorem keeps_scribble (mode : Mode) (s : State) (store : Word × Byte) : Keeps s (scribble mode s store) := by
  unfold scribble
  cases translate mode store.1 true s with
  | error e t => exact Keeps.refl s
  | ok m t =>
    dsimp only
    split
    · cases h : busWrite m.pa (laneOf .byte m.pa) (onBothLanes store.2) s with
      | ok a u => exact (kept_busWrite _ _ _).ok h
      | error e u => exact Keeps.refl s
    · exact Keeps.refl s

theorem keeps_applyUnpredictable (u : Unpredictable) (mode : Mode) (s : State) : Keeps s (applyUnpredictable u mode s) := by
  have hstores : ∀ (l : List (Word × Byte)) (t : State), Keeps t (l.foldl (scribble mode) t) := by
    intro l
    induction l with
    | nil => exact Keeps.refl
    | cons x rest ih => exact fun t => (keeps_scribble mode t x).trans (ih _)
  exact ((hstores u.stores s).trans (keeps_merge_ps (mask := 0o417) (by decide) _ _)).trans { Keeps.refl _ with }

@[simp] theorem kept_manifestTrap (op : Word) (mode : Mode) (t : Option UnpredictableTrap) :
    Kept (manifestTrap op mode t) := by
  rcases t with _ | ⟨va, _ | _⟩ | i | i | sp
  · exact kept_pure _
  · exact .bind (by simp) fun _ => kept_pure _
  · exact .bind (by simp) fun _ => by simp
  · exact kept_raiseTrap _
  · exact .bind (by simp) fun _ => by simp
  · exact kept_ite (kept_modify fun s => { Keeps.refl s with }) (kept_pure _)

@[simp] theorem kept_effectUnpredictable (op : Word) : Kept (effectUnpredictable op) :=
  .bind (by simp) fun _ => .bind (by simp) fun _ => .bind (kept_modify (keeps_applyUnpredictable _ _)) fun _ => by simp

@[simp] theorem kept_anyCodes : Kept anyCodes := .bind (by simp) fun _ => kept_pure _

@[simp] theorem kept_anyBytes (n : Nat) : Kept (anyBytes n) := by
  induction n with
  | zero => exact kept_pure _
  | succ n ih => exact .bind (by simp) fun _ => .bind ih fun _ => kept_pure _

@[simp] theorem kept_cisInstr {body : Word → M Unit} (h : ∀ op, Kept (body op)) : Kept (cisInstr body) :=
  .bind kept_get fun _ => kept_ite (kept_ite (by simp) (h _)) (by simp)

@[simp] theorem kept_cisDone (wrotePs : Bool) (k : Codes) : Kept (cisDone wrotePs k) :=
  .bind (by simp) fun _ => kept_modify (keeps_merge_ps (by decide) _)

@[simp] theorem kept_inRegisters (form : CisForm) {update : M Unit} (h : Kept update) : Kept (form.inRegisters update) := by
  cases form with
  | register => exact h
  | inLine => exact kept_pure _

@[simp] theorem kept_descReg (even odd : Reg) : Kept (descReg even odd) :=
  .bind (by simp) fun _ => by simp

@[simp] theorem kept_descMem (p : Word) : Kept (descMem p) :=
  .bind (by simp) fun _ => by simp

@[simp] theorem kept_writeDesc (even odd : Reg) (d : Desc) : Kept (writeDesc even odd d) :=
  .bind (by simp) fun _ => by simp

@[simp] theorem kept_withChar {op w : Word} {k : Byte → M Unit} (hk : ∀ c, Kept (k c)) : Kept (withChar op w k) :=
  kept_ite (hk _) (by simp)

@[simp] theorem kept_chr (d : Desc) (i : Nat) : Kept (d.chr i) := kept_readByte _

@[simp] theorem kept_readBytes (l : List Word) : Kept (readBytes l) := by
  induction l with
  | nil => exact kept_pure _
  | cons a rest ih => exact .bind (by simp) fun _ => .bind ih fun _ => kept_pure _

@[simp] theorem kept_storeBytes (a : Word) (l : List Byte) : Kept (storeBytes a l) := by
  induction l generalizing a with
  | nil => exact kept_pure _
  | cons b rest ih => exact .bind (by simp) fun _ => .bind (ih _) fun _ => kept_pure _

@[simp] theorem kept_withTable {op table : Word} {k : M Unit} (hk : Kept k) : Kept (withTable op table k) :=
  .bind kept_get fun _ => kept_ite hk (by simp)

@[simp] theorem kept_loadDesc (a : Word) : Kept (loadDesc a) :=
  .bind (by simp) fun _ => by simp

@[simp] theorem kept_moveOps (form : CisForm) (translated : Bool) : Kept (moveOps form translated) := by
  cases form with
  | register => exact .bind (by simp) fun _ => .bind (by simp) fun _ => by simp
  | inLine =>
    exact .bind (by simp) fun _ => .bind (by simp) fun _ => .bind (by simp) fun _ => kept_ite
      (.bind (by simp) fun _ => by simp)
      (.bind (by simp) fun _ => by simp)

@[simp] theorem kept_moveDone (form : CisForm) (m : MoveOps) (wrotePs : Bool) (k : Codes) :
    Kept (moveDone form m wrotePs k) :=
  .bind (kept_inRegisters form (.bind (by simp) fun _ => by simp))
    fun _ => by simp

@[simp] theorem kept_moveChar (form : CisForm) : Kept (moveChar form) :=
  kept_cisInstr fun _ => .bind (by simp) fun _ => kept_withChar fun _ =>
    .bind (by simp) fun _ => by simp

@[simp] theorem kept_moveReverse (form : CisForm) : Kept (moveReverse form) :=
  kept_cisInstr fun _ => .bind (by simp) fun _ => kept_withChar fun _ =>
    .bind (by simp) fun _ => by simp

@[simp] theorem kept_storeTranslated (table a : Word) (l : List Byte) : Kept (storeTranslated table a l) := by
  induction l generalizing a with
  | nil => exact kept_pure _
  | cons c rest ih =>
    exact .bind (by simp) fun _ => .bind (by simp) fun _ => .bind (ih _) fun _ => kept_pure _

@[simp] theorem kept_moveTranslated (form : CisForm) : Kept (moveTranslated form) :=
  kept_cisInstr fun _ => .bind (by simp) fun _ => kept_withChar fun _ => kept_withTable <|
    .bind kept_get fun _ => .bind (by simp) fun _ => kept_ite
      (.bind (by simp) fun _ => by simp)
      (.bind (by simp) fun _ => by simp)

@[simp] theorem kept_searchFrom {stop : Byte → M Bool} (h : ∀ b, Kept (stop b)) (i : Nat) (l : List Word) :
    Kept (searchFrom stop i l) := by
  induction l generalizing i with
  | nil => exact kept_pure _
  | cons a rest ih => exact .bind (by simp) fun b => .bind (h b) fun _ => kept_ite (kept_pure _) (ih _)

@[simp] theorem kept_searchResult (src : Desc) (i : Nat) : Kept (searchResult src i) :=
  .bind (by simp) fun _ => by simp

@[simp] theorem kept_searchFor {stop : Byte → M Bool} (h : ∀ b, Kept (stop b)) (src : Desc) : Kept (searchFor src stop) :=
  .bind (kept_searchFrom h _ _) fun _ => by simp

@[simp] theorem kept_charSearchOps (form : CisForm) : Kept (charSearchOps form) := by
  cases form with
  | register => exact .bind (by simp) fun _ => by simp
  | inLine => exact .bind (by simp) fun _ => by simp

@[simp] theorem kept_locateChar (form : CisForm) : Kept (locateChar form) :=
  kept_cisInstr fun _ => .bind (by simp) fun _ => kept_withChar fun _ => kept_searchFor (fun _ => kept_pure _) _

@[simp] theorem kept_skipChar (form : CisForm) : Kept (skipChar form) :=
  kept_cisInstr fun _ => .bind (by simp) fun _ => kept_withChar fun _ => kept_searchFor (fun _ => kept_pure _) _

@[simp] theorem kept_twoDescs (form : CisForm) (even odd : Reg) : Kept (twoDescs form even odd) := by
  cases form with
  | register => exact .bind (by simp) fun _ => by simp
  | inLine =>
    exact .bind (by simp) fun _ => .bind (by simp) fun _ => by simp

@[simp] theorem kept_withSet {op : Word} {d : Desc} {k : Byte → Word → M Unit} (hk : ∀ c t, Kept (k c t)) :
    Kept (withSet op d k) :=
  kept_ite (kept_withTable (hk _ _)) (by simp)

@[simp] theorem kept_inSet (mask : Byte) (table : Word) (c : Byte) : Kept (inSet mask table c) :=
  .bind (by simp) fun _ => kept_pure _

@[simp] theorem kept_scanSet (form : CisForm) : Kept (scanSet form) :=
  kept_cisInstr fun _ => .bind (by simp) fun _ => kept_withSet fun mask table => kept_searchFor (kept_inSet mask table) _

@[simp] theorem kept_spanSet (form : CisForm) : Kept (spanSet form) :=
  kept_cisInstr fun _ => .bind (by simp) fun _ => kept_withSet fun _ _ =>
    kept_searchFor (fun _ => by simp) _

@[simp] theorem kept_chrOr (d : Desc) (fill : Byte) (i : Nat) : Kept (d.chrOr fill i) :=
  kept_ite (by simp) (kept_pure _)

@[simp] theorem kept_compareFrom (s1 s2 : Desc) (fill : Byte) (fuel i : Nat) : Kept (compareFrom s1 s2 fill fuel i) := by
  induction fuel generalizing i with
  | zero => exact kept_pure _
  | succ n ih => exact .bind (by simp) fun _ => .bind (by simp) fun _ => kept_ite (ih _) (kept_pure _)

@[simp] theorem kept_compareOps (form : CisForm) : Kept (compareOps form) := by
  cases form with
  | register => exact .bind (by simp) fun _ => by simp
  | inLine =>
    exact .bind (by simp) fun _ => .bind (by simp) fun _ => .bind (by simp) fun _ => .bind (by simp) fun _ =>
      .bind (by simp) fun _ => kept_pure _

@[simp] theorem kept_compareChar (form : CisForm) : Kept (compareChar form) :=
  kept_cisInstr fun _ => .bind (by simp) fun _ => kept_withChar fun _ => .bind (by simp) fun _ =>
    .bind (kept_inRegisters form (.bind (by simp) fun _ => by simp)) fun _ => by simp

@[simp] theorem kept_matchesAt (src obj : Desc) (i fuel j : Nat) : Kept (matchesAt src obj i fuel j) := by
  induction fuel generalizing j with
  | zero => exact kept_pure _
  | succ n ih => exact .bind (by simp) fun _ => .bind (by simp) fun _ => kept_ite (ih _) (kept_pure _)

@[simp] theorem kept_matchFrom (src obj : Desc) (fuel i : Nat) : Kept (matchFrom src obj fuel i) := by
  induction fuel generalizing i with
  | zero => exact kept_pure _
  | succ n ih => exact .bind (by simp) fun _ => kept_ite (kept_pure _) (ih _)

@[simp] theorem kept_matchChar (form : CisForm) : Kept (matchChar form) :=
  kept_cisInstr fun _ => by simp

@[simp] theorem kept_withDec {op : Word} {cls : DecClass} {d : Desc} {k : Dec → M Unit} (hk : ∀ x, Kept (k x)) :
    Kept (withDec op cls d k) := by
  unfold withDec
  cases ddesc d.fst d.snd cls with
  | none => exact kept_effectUnpredictable op
  | some x => exact hk x

@[simp] theorem kept_decRead (d : Dec) : Kept d.read := .bind (by simp) fun _ => kept_pure _

@[simp] theorem kept_deliver (d : Dec) (o : DecOutcome) : Kept (d.deliver o) := by
  cases o with
  | value v => exact .bind (by simp) fun _ => kept_pure _
  | divideByZero => exact .bind (by simp) fun _ => by simp
  | unpredictable => exact .bind (by simp) fun _ => by simp

@[simp] theorem kept_clearRegs (l : List Reg) : Kept (clearRegs l) := by
  induction l with
  | nil => exact kept_pure _
  | cons r rest ih => exact .bind (by simp) fun _ => ih

@[simp] theorem kept_decDone (form : CisForm) (cleared : List Reg) (wrotePs : Bool) (k : Codes) :
    Kept (decDone form cleared wrotePs k) :=
  .bind (by simp) fun _ => by simp

@[simp] theorem kept_threeDescs (form : CisForm) : Kept (threeDescs form) := by
  cases form with
  | register => exact .bind (by simp) fun _ => by simp
  | inLine =>
    exact .bind (by simp) fun _ => .bind (by simp) fun _ => .bind (by simp) fun _ => .bind (by simp) fun _ =>
      .bind (by simp) fun _ => by simp

@[simp] theorem kept_descPair (form : CisForm) : Kept (descPair form) := by
  cases form with
  | register => exact .bind (by simp) fun _ => by simp
  | inLine =>
    exact .bind (by simp) fun _ => .bind (by simp) fun _ => by simp

@[simp] theorem kept_decArith (form : CisForm) (cls : DecClass) (rule : OverlapRule) (f : Int → Int → DecOutcome) :
    Kept (decArith form cls rule f) :=
  kept_cisInstr fun _ => .bind (by simp) fun _ => kept_withDec fun _ => kept_withDec fun _ => kept_withDec fun _ =>
    .bind (by simp) fun _ => .bind (by simp) fun _ => .bind kept_get fun _ => by simp

@[simp] theorem kept_decCompare (form : CisForm) (cls : DecClass) : Kept (decCompare form cls) := by
  refine kept_cisInstr fun _ => .bind (by simp) fun _ => kept_withDec fun _ => kept_withDec fun _ =>
    .bind (by simp) fun v1 => .bind (by simp) fun v2 => ?_
  rcases v1 with _ | v1 <;> rcases v2 with _ | v2 <;> simp

@[simp] theorem kept_shiftOps (form : CisForm) : Kept (shiftOps form) := kept_compareOps form

@[simp] theorem kept_decShiftInstr (form : CisForm) (cls : DecClass) : Kept (decShiftInstr form cls) :=
  kept_cisInstr fun _ => .bind (by simp) fun _ => kept_ite
    (kept_withDec fun _ => kept_withDec fun _ => .bind (by simp) fun _ => .bind kept_get fun _ =>
      .bind (by simp) fun _ => by simp)
    (by simp)

@[simp] theorem kept_decConvert (form : CisForm) (fromCls toCls : DecClass) : Kept (decConvert form fromCls toCls) :=
  kept_cisInstr fun _ => .bind (by simp) fun _ => kept_withDec fun _ => kept_withDec fun _ => .bind (by simp) fun _ =>
    .bind kept_get fun _ => by simp

@[simp] theorem kept_putLong (form : CisForm) (p : Word) (x : Long) : Kept (putLong form p x) := by
  cases form <;> exact .bind (by simp) fun _ => by simp

@[simp] theorem kept_toLongOps (form : CisForm) : Kept (toLongOps form) := by
  cases form with
  | register => exact .bind (by simp) fun _ => kept_pure _
  | inLine => exact .bind (by simp) fun _ => by simp

@[simp] theorem kept_decToLong (form : CisForm) (cls : DecClass) : Kept (decToLong form cls) := by
  refine kept_cisInstr fun _ => .bind (by simp) fun _ => kept_withDec fun _ => .bind (by simp) fun v => ?_
  cases v with
  | some v => exact .bind (by simp) fun _ => by simp
  | none => exact .bind (by simp) fun _ => .bind (by simp) fun _ => by simp

@[simp] theorem kept_fromLongOps (form : CisForm) : Kept (fromLongOps form) := by
  cases form with
  | register => exact .bind (by simp) fun _ => by simp
  | inLine =>
    exact .bind (by simp) fun _ => .bind (by simp) fun _ => by simp

@[simp] theorem kept_decFromLong (form : CisForm) (cls : DecClass) : Kept (decFromLong form cls) :=
  kept_cisInstr fun _ => .bind (by simp) fun _ => kept_withDec fun _ => by simp

end Sys2Proof.Machine

namespace Sys2Proof.Machine

/-! The meaning of every instruction. -/

theorem within_mtpsMask (mode : Mode) : within psImplemented (mtpsMask mode) = true := by
  cases mode <;> decide

theorem within_ldfps (w old : Word) (h : within fpsImplemented old = true) :
    within fpsImplemented (merge 0o177777 (w &&& ldfpsMask) old) = true :=
  within_or (within_and_left h) (within_and_left (within_and_right (by decide)))

theorem keeps_busInit (s : State) : Keeps s (busInit s) where
  cfg := rfl
  slu u h := by
    cases u with
    | console =>
      show (s.slu1.busInit s.cfg.uart1NoInit).requestsJustified = true
      unfold Slu.busInit
      split <;> rfl
    | second => rfl
  mem := id
  ps := id
  mmu h := { h with
    sr0 := show within sr0Implemented 0 = true by decide
    sr3 := show within sr3Writable 0 = true by decide }
  fps := id
  pcr _ := show within pcrWritable 0 = true by decide

theorem kept_haltAction : Kept haltAction := by
  intro s
  simp only [haltAction, run_bind, run_get]
  split
  · exact Keeps.refl s
  · split
    · exact { Keeps.refl s with }
    · exact kept_ite (kept_throw _) kept_enterOdt s

/-- Every instruction keeps what `Keeps` names: its meaning is made of operations that do. -/
theorem keptBy_exec (i : Instr) (s : State) : KeptBy (exec i s) s := by
  cases i with
  | rtt => exact keptBy_runReturnTrace kept_returnFromTrap s
  | halt => exact keptBy_runInstr kept_haltAction s
  | wait =>
    refine keptBy_runInstr (kept_modify fun t => ?_) s
    exact { Keeps.refl t with }
  | reset =>
    refine keptBy_runInstr (kept_modify fun t => ?_) s
    split
    · exact keeps_busInit t
    · exact Keeps.refl t
  | rti => exact keptBy_runInstr kept_returnFromTrap s
  | bpt | iot | emt | trap | reserved => exact keptBy_runInstr (kept_raiseTrap _) s
  | mfpt => exact keptBy_runInstr (kept_writeReg _ _) s
  | br | bne | beq | bge | blt | bgt | ble | bpl | bmi | bhi | blos | bvc | bvs | bcc | bcs =>
    exact keptBy_runInstr (kept_branchIf _ _) s
  | nop | clc | clv | clz | cln | ccc | clearCodes => exact keptBy_runInstr (kept_clearMask _) s
  | sec | sev | sez | sen | scc | setCodes => exact keptBy_runInstr (kept_setMask _) s
  | com | inc | dec | neg | adc | sbc | ror | rol | asr | asl | swab => exact keptBy_runInstr (kept_singleWord _ _) s
  | comb | incb | decb | negb | adcb | sbcb | rorb | rolb | asrb | aslb => exact keptBy_runInstr (kept_singleByte _ _) s
  | clr | clrb => exact keptBy_runInstr (.bind (by simp) fun _ => by simp) s
  | tst | tstb | sxt => exact keptBy_runInstr (.bind (by simp) fun _ => by simp) s
  | mov => exact keptBy_runInstr (kept_doubleWord fun _ _ => by simp) s
  | movb => exact keptBy_runInstr (kept_doubleByte fun _ _ => by simp) s
  | cmp | bit => exact keptBy_runInstr (kept_compareWord _ _ _) s
  | cmpb | bitb => exact keptBy_runInstr (kept_compareByte _ _ _) s
  | bic | bis | add | sub => exact keptBy_runInstr (kept_doubleWord fun _ _ => by simp) s
  | bicb | bisb => exact keptBy_runInstr (kept_doubleByte fun _ _ => by simp) s
  | mul | ash | ashc =>
    exact keptBy_runInstr (.bind (by simp) fun _ => .bind (by simp) fun _ => by simp) s
  | div r src =>
    refine keptBy_runInstr (.bind (by simp) fun v => .bind (by simp) fun n => ?_) s
    rcases aluDiv n v with ⟨_ | ⟨q, m⟩, k⟩ <;> simp
  | xor => exact keptBy_runInstr (.bind (by simp) fun _ => by simp) s
  | sob =>
    refine keptBy_runInstr (.bind (kept_readReg _) fun _ => .bind (kept_writeReg _ _) fun _ =>
      kept_ite (kept_pure _) (kept_modify fun t => ?_)) s
    exact { Keeps.refl t with }
  | jmp => exact keptBy_runInstr (.bind (by simp) fun _ => by simp) s
  | jsr =>
    exact keptBy_runInstr (.bind (by simp) fun _ => .bind (by simp) fun _ => .bind (by simp) fun _ => .bind (by simp) fun _ =>
      .bind (by simp) fun _ => .bind (by simp) fun _ => .bind (by simp) fun _ => by simp) s
  | rts => exact keptBy_runInstr (.bind (by simp) fun _ => .bind (by simp) fun _ => by simp) s
  | mark =>
    exact keptBy_runInstr (.bind (by simp) fun _ => .bind (by simp) fun _ => .bind (by simp) fun _ => .bind (by simp) fun _ =>
      .bind (by simp) fun _ => by simp) s
  | mfpi | mfpd => exact keptBy_runInstr (kept_moveFromPrevious _) s
  | mtpi | mtpd => exact keptBy_runInstr (kept_moveToPrevious _) s
  | mfps =>
    refine keptBy_runInstr (.bind kept_get fun _ => .bind (kept_evalField _ _) fun _ => .bind kept_codesNow fun _ =>
      kept_ite ?_ ?_) s <;> simp
  | mtps =>
    exact keptBy_runInstr (.bind (by simp) fun _ => .bind (by simp) fun _ =>
      kept_modify fun s => keeps_merge_ps (within_mtpsMask s.mode) _ s) s
  | cfcc => exact keptBy_runInstr (kept_fpInstr fun _ _ => kept_modify fun s => keeps_merge_ps (by decide) _ s) s
  | setf | setd | seti | setl => exact keptBy_runInstr (kept_fpInstr fun _ _ => kept_mergeFps (by decide) _) s
  | ldfps =>
    refine keptBy_runInstr (kept_fpInstr fun _ _ => .bind (kept_operandWord _) fun w => kept_modify fun t => ?_) s
    exact { Keeps.refl t with fps := within_ldfps w _ }
  | stfps | stst =>
    exact keptBy_runInstr (kept_fpInstr fun _ _ => .bind (by simp) fun _ => by simp) s
  | clrf => exact keptBy_runInstr (kept_fpInstr fun _ _ => kept_withFpLoc fun _ => by simp) s
  | tstf | ldf =>
    exact keptBy_runInstr (kept_fpInstr fun _ _ => kept_withFpSource fun _ _ => by simp) s
  | absf | negf => exact keptBy_runInstr (kept_fpUnary _ _) s
  | addf | subf | mulf => exact keptBy_runInstr (kept_fpArith _ _ _) s
  | divf =>
    exact keptBy_runInstr (kept_fpInstr fun _ _ => kept_withFpOperand fun _ =>
      kept_ite (by simp) (.bind (by simp) fun _ => by simp)) s
  | modf ac fsrc =>
    refine keptBy_runInstr (kept_fpInstr fun _ _ => kept_withFpOperand fun _ => .bind (by simp) fun _ =>
      .bind (by simp) fun _ => ?_) s
    cases ac <;> exact .bind (by simp) fun _ => by simp
  | cmpf =>
    exact keptBy_runInstr (kept_fpInstr fun _ _ => kept_withFpOperand fun _ => .bind (by simp) fun _ =>
      .bind (by simp) fun _ => by simp) s
  | stf => exact keptBy_runInstr (kept_fpInstr fun _ _ => .bind (by simp) fun _ => kept_withFpLoc fun _ => by simp) s
  | stexp =>
    exact keptBy_runInstr (kept_fpInstr fun _ _ => .bind (by simp) fun _ => .bind (by simp) fun _ => .bind (by simp) fun _ =>
      .bind (by simp) fun _ => by simp) s
  | stcfi =>
    exact keptBy_runInstr (kept_fpInstr fun _ _ => .bind (by simp) fun _ => .bind (by simp) fun _ => .bind (by simp) fun _ =>
      .bind (by simp) fun _ => by simp) s
  | stcfd =>
    exact keptBy_runInstr (kept_fpInstr fun _ _ => .bind (by simp) fun _ => kept_withFpLoc fun _ => .bind (by simp) fun _ =>
      .bind (by simp) fun _ => by simp) s
  | ldexp => exact keptBy_runInstr (kept_fpInstr fun _ _ => .bind (by simp) fun _ => by simp) s
  | ldcif => exact keptBy_runInstr (kept_fpInstr fun _ _ => .bind (by simp) fun _ => by simp) s
  | ldcdf =>
    exact keptBy_runInstr (kept_fpInstr fun _ _ => kept_withFpSource fun _ _ =>
      kept_ite (.bind (by simp) fun _ => by simp) (by simp)) s
  | fpIllegal => exact keptBy_runInstr (kept_fpInstr fun _ _ => kept_fpException _ _) s
  | l2d =>
    exact keptBy_runInstr (.bind (by simp) fun _ => kept_ite
      (.bind (by simp) fun _ => .bind (by simp) fun _ => .bind (by simp) fun _ => .bind (by simp) fun _ =>
        .bind (by simp) fun _ => by simp)
      (by simp)) s
  | l3d =>
    exact keptBy_runInstr (.bind (by simp) fun _ => kept_ite
      (.bind (by simp) fun _ => .bind (by simp) fun _ => .bind (by simp) fun _ => .bind (by simp) fun _ =>
        .bind (by simp) fun _ => .bind (by simp) fun _ => by simp)
      (by simp)) s
  | movc | movci => exact keptBy_runInstr (kept_moveChar _) s
  | movrc | movrci => exact keptBy_runInstr (kept_moveReverse _) s
  | movtc | movtci => exact keptBy_runInstr (kept_moveTranslated _) s
  | locc | locci => exact keptBy_runInstr (kept_locateChar _) s
  | skpc | skpci => exact keptBy_runInstr (kept_skipChar _) s
  | scanc | scanci => exact keptBy_runInstr (kept_scanSet _) s
  | spanc | spanci => exact keptBy_runInstr (kept_spanSet _) s
  | cmpc | cmpci => exact keptBy_runInstr (kept_compareChar _) s
  | matc | matci => exact keptBy_runInstr (kept_matchChar _) s
  | addn | addni | subn | subni | addp | addpi | subp | subpi | mulp | mulpi | divp | divpi =>
    exact keptBy_runInstr (kept_decArith _ _ _ _) s
  | cmpn | cmpni | cmpp | cmppi => exact keptBy_runInstr (kept_decCompare _ _) s
  | ashn | ashni | ashp | ashpi => exact keptBy_runInstr (kept_decShiftInstr _ _) s
  | cvtnl | cvtnli | cvtpl | cvtpli => exact keptBy_runInstr (kept_decToLong _ _) s
  | cvtln | cvtlni | cvtlp | cvtlpi => exact keptBy_runInstr (kept_decFromLong _ _) s
  | cvtnp | cvtnpi | cvtpn | cvtpni => exact keptBy_runInstr (kept_decConvert _ _ _) s

/-! Between instructions. -/

theorem keeps_ite {c : Prop} [Decidable c] {s t u : State} (ht : Keeps s t) (hu : Keeps s u) :
    Keeps s (if c then t else u) := by
  split
  · exact ht
  · exact hu

theorem keeps_odtGo (s : State) : Keeps s (stateOf (odtGo s)) := by
  refine (keeps_busInit s).trans { Keeps.refl (busInit s) with ps := fun _ => ?_, fps := fun h => ?_ }
  · exact show within psImplemented 0 = true by decide
  · show within fpsImplemented (if s.cfg.fpPresent then _ else (busInit s).fpp : Fpp).fps = true
    split
    · exact show within fpsImplemented 0 = true by decide
    · exact h

@[simp] theorem kept_modifyOdt (f : Odt → Odt) : Kept (modifyOdt f) := kept_modify fun s => { Keeps.refl s with }

@[simp] theorem kept_odtWrite (pa : PAddr) (v : Word) : Kept (odtWrite pa v) := kept_attempt (by simp)

@[simp] theorem kept_odtError : Kept odtError := kept_modifyOdt _

@[simp] theorem kept_readOdtLoc (l : OdtLoc) : Kept (readOdtLoc l) := by
  cases l with
  | bus a => exact kept_attempt (by simp)
  | reg n => exact .bind (by simp) fun _ => kept_pure _
  | ps => exact .bind kept_get fun _ => kept_pure _

@[simp] theorem kept_writeOdtLoc (l : OdtLoc) (v : Word) : Kept (writeOdtLoc l v) := by
  cases l with
  | bus a => exact kept_odtWrite _ _
  | reg n => exact .bind (by simp) fun _ => kept_pure _
  | ps => exact .bind (kept_modify (keeps_merge_ps (by decide) v)) fun _ => kept_pure _

@[simp] theorem kept_openOdtLoc (l : OdtLoc) : Kept (openOdtLoc l) := by
  refine .bind (by simp) fun v => ?_
  cases v <;> simp

theorem kept_odtAct (op : OdtOp) (rest : List OdtOp) : Kept (odtAct op rest) := by
  cases op with
  | put c =>
    refine .bind (by simp) fun w => ?_
    cases w with
    | none => exact kept_pure _
    | some w => exact kept_ite (.bind (by simp) fun _ => by simp) (kept_pure _)
  | openLoc l => exact kept_openOdtLoc l
  | deposit l v =>
    refine .bind (by simp) fun r => ?_
    cases r <;> simp
  | dumpByte a =>
    refine .bind (kept_attempt (by simp)) fun w => ?_
    cases w <;> simp
  | go => exact keeps_odtGo
  | proceed => exact kept_modify fun s => { Keeps.refl s with }

theorem kept_odtPoll : Kept odtPoll := by
  refine .bind (by simp) fun w => ?_
  cases w with
  | none => exact kept_pure _
  | some w =>
    refine kept_ite (.bind (by simp) fun v => ?_) (kept_pure _)
    cases v <;> simp

theorem keeps_odtStep (s : State) : Keeps s (odtStep s) := by
  have hkept : ∀ x : M Unit, Kept x → Keeps s (match x s with | .ok _ t => t | .error _ t => t) := by
    intro x hx
    cases h : x s with
    | ok a t => exact hx.ok h
    | error e t => exact hx.error h
  unfold odtStep
  cases s.odt.todo with
  | nil => exact hkept _ kept_odtPoll
  | cons op rest => exact hkept _ (kept_odtAct op rest)

/-- A power-up gives registers that set no bit they do not implement. -/
theorem anyMmu_sound (n : Nat) : (anyMmu n).Sound where
  sr0 := show within sr0Implemented 0 = true by decide
  sr3 := show within sr3Writable 0 = true by decide
  kpdr := by simp [anyMmu, Vector.all_eq_true, within_and_right, show within pdrImplemented pdrImplemented = true by decide]
  updr := by simp [anyMmu, Vector.all_eq_true, within_and_right, show within pdrImplemented pdrImplemented = true by decide]

theorem keeps_powerUp (s : State) : Keeps s (powerUp s) := by
  refine Keeps.trans ?_ (keeps_busInit _)
  exact {
    cfg := rfl
    slu := fun u _ => by cases u <;> rfl
    mem := fun h => by
      show Memory.wf (if s.cfg.nonvolatile then s.mem else _) = true
      split
      · exact h
      · exact Memory.wf_writeAll _ Memory.wf_nil
    ps := fun _ => show within psImplemented 0 = true by decide
    mmu := fun _ => anyMmu_sound _
    fps := fun _ => within_and_right (by decide)
    pcr := id }

theorem keeps_powerDown (s : State) : Keeps s (powerDown s) :=
  (keeps_busInit s).trans { Keeps.refl (busInit s) with }

theorem kept_loadRestart : Kept loadRestart := by
  refine .bind (by simp) fun pc => .bind (kept_modify fun s => ?_) fun _ => .bind (by simp) fun ps =>
    .bind (kept_modify fun s => ?_) fun _ => .bind kept_get fun _ => kept_ite kept_enterOdt (kept_pure _)
  · exact { Keeps.refl s with }
  · exact { Keeps.refl s with ps := fun _ => within_and_right (by decide) }

theorem kept_loadBootstrap : Kept loadBootstrap := by
  refine .bind (kept_modify fun s => ?_) fun _ => .bind kept_get fun _ => kept_ite kept_enterOdt (kept_pure _)
  exact { Keeps.refl s with ps := fun _ => show within psImplemented 0o000340 = true by decide }

theorem keeps_powerUpAction (s : State) : Keeps s (powerUpAction s) := by
  have hstart : Keeps s { s with ps := 0, run := .running } :=
    { Keeps.refl s with ps := fun _ => show within psImplemented 0 = true by decide }
  have hload : ∀ x : M Unit, Kept x → ∀ u : State, Keeps u (match x u with
      | .ok _ t => t
      | .error stop t => { t with pend := { t.pend with trap := some stop.request } }) := by
    intro x hx u
    cases h : x u with
    | ok a t => exact hx.ok h
    | error e t => exact (hx.error h).trans { Keeps.refl t with }
  unfold powerUpAction
  dsimp only
  cases s.cfg.powerUpMode with
  | mode3 => exact hstart.trans (keeps_performTrap _ _)
  | mode0 => exact hstart.trans (hload _ kept_loadRestart _)
  | mode1 => exact hstart.trans (hload _ kept_enterOdt _)
  | mode2 => exact hstart.trans (hload _ kept_loadBootstrap _)

theorem transmit_justified (x : Slu) (h : x.requestsJustified = true) : x.transmit.requestsJustified = true := by
  unfold Slu.transmit
  split
  · exact h
  · cases x.txTimer with
    | zero => exact settle_justified _ _
    | succ n => exact h

theorem keeps_transmitted (s : State) : Keeps s s.transmitted := by
  unfold State.transmitted
  split
  · exact Keeps.refl s
  · exact { Keeps.refl s with slu := fun u h => by cases u <;> exact transmit_justified _ h }

theorem keeps_afterDma (cs : List DmaCycle) (s : State) : Keeps s (s.afterDma cs) :=
  { Keeps.refl s with mem := granted_wf (s := { s with bus := { s.bus with dma := [cs] } }) }

theorem keeps_applyInput (i : Input) (s : State) : Keeps s (applyInput i s) := by
  cases i with
  | quiet => exact Keeps.refl s
  | receive u c frm par ovr =>
    have hu : Keeps s (s.withSlu u ((s.slu u).receive c frm par ovr)) := keeps_withSlu fun _ => settle_justified _ _
    exact keeps_ite (hu.trans { Keeps.refl _ with }) hu
  | clockEdge => exact keeps_ite { Keeps.refl s with } (Keeps.refl s)
  | breakEnd | bhalt _ | bpok _ | requests _ => exact { Keeps.refl s with }
  | powerDown _ => exact keeps_powerDown s
  | powerUp => exact keeps_ite (keeps_powerUp s) (Keeps.refl s)
  | dma cycles => exact keeps_afterDma cycles s

theorem keeps_tick (s : State) : Keeps s (tick s) := by
  refine Keeps.trans ((keeps_transmitted s).trans ?_) (keeps_applyInput _ _)
  exact { Keeps.refl s.transmitted with }

theorem keeps_withdraw (r : Requester) (s : State) : Keeps s (withdraw r s) := by
  cases r with
  | clock | bus _ => exact { Keeps.refl s with }
  | receiver u => exact keeps_withSlu fun h => Bool.and_eq_true_iff.mpr ⟨rfl, (Bool.and_eq_true_iff.mp h).2⟩
  | transmitter u => exact keeps_withSlu fun h => Bool.and_eq_true_iff.mpr ⟨(Bool.and_eq_true_iff.mp h).1, rfl⟩

/-- The state the service state leaves. -/
def Serviced.state : Serviced → State
  | .acted t => t
  | .fetch t => t

theorem keeps_serviceHalt (s : State) : Keeps s (serviceHalt s).state := by
  unfold serviceHalt
  split
  · cases hr : enterOdt s with
    | ok a t => exact kept_enterOdt.ok hr
    | error e t => exact kept_enterOdt.error hr
  · split <;> exact Keeps.refl s

theorem keeps_serviceInterrupt (r : Requester) (s : State) : Keeps s (serviceInterrupt r s).state := by
  unfold serviceInterrupt
  cases requestVector s.cfg r with
  | some v => exact (keeps_withdraw r s).trans (keeps_performTrap _ _)
  | none => exact { Keeps.refl s with }

theorem keeps_service (s : State) : Keeps s (service s).state := by
  have hpend (p : Pending) (req : TrapRequest) : Keeps s (performTrap req { s with pend := p }) :=
    Keeps.trans (t := { s with pend := p }) { Keeps.refl s with } (keeps_performTrap req _)
  unfold service
  split
  · exact hpend _ _
  split
  · exact hpend _ _
  split
  · exact hpend _ _
  cases firstRequest s with
  | none => exact keeps_serviceHalt s
  | some x =>
    dsimp only
    split
    · exact keeps_serviceInterrupt _ s
    · exact keeps_serviceHalt s

theorem KeptBy.after {o : Host.Outcome State Fault Refusal} {s u : State} (h : KeptBy o u) (hu : Keeps s u) : KeptBy o s :=
  fun t ht => hu.trans (h t ht)

theorem keptBy_fetchAndRun (s : State) : KeptBy (fetchAndRun s) s := by
  unfold fetchAndRun
  cases h : fetchOpcode s with
  | ok w t => exact (keptBy_exec _ t).after (kept_fetchOpcode.ok h)
  | error e t => exact keptBy_next ((kept_fetchOpcode.error h).trans (keeps_performTrap _ t))

theorem keptBy_processorStep (s : State) : KeptBy (processorStep s) s := by
  unfold processorStep
  cases s.pend.trap with
  | some req => exact keptBy_next (keeps_performTrap req s)
  | none =>
    dsimp only
    split
    · exact (keptBy_fetchAndRun _).after { Keeps.refl s with }
    · have h := keeps_service s
      cases hs : service s with
      | acted t =>
        rw [hs] at h
        exact keptBy_next h
      | fetch t =>
        rw [hs] at h
        exact (keptBy_fetchAndRun t).after h

theorem keptBy_runStateStep (s : State) : KeptBy (runStateStep s) s := by
  unfold runStateStep
  cases s.run with
  | running | waiting => exact keptBy_processorStep s
  | halted => exact keptBy_next (keeps_odtStep s)
  | awaitingBpok =>
    refine keptBy_next ?_
    split
    · exact keeps_powerUpAction s
    · exact Keeps.refl s
  | poweredDown => exact keptBy_next (Keeps.refl s)

theorem keeps_cutShort (n : Nat) (s : State) : Keeps s (cutShort n s) := by
  unfold cutShort
  cases h : runStateStep ((tick { s with inputs := [] }).losingPower n) with
  | next t =>
    have hquiet : Keeps s (tick { s with inputs := [] }) :=
      Keeps.trans (t := { s with inputs := [] }) { Keeps.refl s with } (keeps_tick _)
    have hlosing : Keeps s ((tick { s with inputs := [] }).losingPower n) := hquiet.trans { Keeps.refl _ with }
    have hcut : Keeps s t := (keptBy_runStateStep _).after hlosing t h
    exact { keeps_tick s with mem := hcut.mem }
  | fault _ | refused _ => exact keeps_tick s

theorem keptBy_step (s : State) : KeptBy (step s) s := by
  have hrun : KeptBy (runStateStep (tick s)) s := (keptBy_runStateStep _).after (keeps_tick s)
  unfold step
  cases s.inputs with
  | nil =>
    dsimp only
    split
    · rintro _ ⟨⟩
    · exact hrun
  | cons i rest =>
    cases i with
    | powerDown n => exact keptBy_next (keeps_cutShort n s)
    | _ => exact hrun

/-- Settles O7: the parameters and the channels are two of the parts that every step keeps. -/
theorem stepKeepsConfigAndChannels : Obligations.StepKeepsConfigAndChannels := by
  intro s t h
  have hk := keptBy_step s t h
  exact ⟨hk.cfg, fun h1 h2 => ⟨hk.slu .console h1, hk.slu .second h2⟩⟩

end Sys2Proof.Machine

namespace Sys2Proof.Machine

variable {α β : Type}

/-! References that fail, and operands that are found: what each leaves of the state. -/

/-! What a reference that fails leaves. -/

theorem busGrant_error {s t : State} {e : Stop} (h : busGrant s = .error e t) : t = s ∧ e = .abort .timeout := by
  rw [busGrant_run] at h
  split at h
  · cases h
    exact ⟨rfl, rfl⟩
  · cases h

/-- A read that fails: the DMA masters have had their turn, unless power is gone (spec/20_memory.md R140, R141). -/
theorem busRead_error {pa : PAddr} {s t : State} {e : Stop} (h : busRead pa s = .error e t) :
    (t = s ∨ t = s.granted) ∧ (e = .abort .timeout ∨ e = .abort .parity) := by
  rcases bind_error_iff.mp h with hg | ⟨⟨⟩, g, hg, hr⟩
  · obtain ⟨rfl, rfl⟩ := busGrant_error hg
    exact ⟨.inl rfl, .inl rfl⟩
  · obtain ⟨rfl, he⟩ := readCycle_error hr
    exact ⟨.inr (busGrant_ok hg).1, he⟩

/-- The write half of a cycle fails only when nothing answers, and then has done nothing (spec/20_memory.md R131, R140). -/
theorem writeBack_error {m : Mapped} {size : Size} {v : Word} {s t : State} {e : Stop}
    (h : writeBack m size v s = .error e t) : t = s ∧ e = .abort .timeout := by
  simp only [writeBack, run_bind, run_get] at h
  split at h
  · rename_i ha
    simp only [run_bind, markWritten_run] at h
    cases hw : writeCycle m.pa (laneOf size m.pa) v { s with mmu := s.mmu.marked m.page } with
    | ok a u =>
      simp only [hw, run_pure] at h
      cases h
    | error e' u =>
      have hsilent : busAnswers s.cfg m.pa = false := (writeCycle_error hw).2.2
      rw [ha] at hsilent
      cases hsilent
  · cases h
    exact ⟨rfl, rfl⟩

theorem storeMapped_error {m : Mapped} {size : Size} {v : Word} {s t : State} {e : Stop}
    (h : storeMapped m size v s = .error e t) : (t = s ∨ t = s.granted) ∧ e = .abort .timeout := by
  rcases bind_error_iff.mp h with hg | ⟨⟨⟩, g, hg, hw⟩
  · obtain ⟨rfl, rfl⟩ := busGrant_error hg
    exact ⟨.inl rfl, rfl⟩
  · obtain ⟨rfl, rfl⟩ := writeBack_error hw
    exact ⟨.inr (busGrant_ok hg).1, rfl⟩

/-- The reference of an operand has failed in `v` and left `u`: no register and nothing of the PS has changed, nothing is
stored; SR0 may have taken an abort, and the DMA masters have had some turns (spec/60_exceptions.md R705, R710). -/
def Abandoned (v u : State) : Prop := ∃ n, u = { v.grants n with mmu := { v.mmu with sr0 := u.mmu.sr0 } }

theorem abandoned_of_grant {v u : State} (h : u = v ∨ u = v.granted) : Abandoned v u := by
  rcases h with rfl | rfl
  · exact ⟨0, rfl⟩
  · exact ⟨1, rfl⟩

theorem abandoned_of_translate {mode : Mode} {va : Word} {write : Bool} {v u : State} {e : Stop}
    (h : translate mode va write v = .error e u) : Abandoned v u := by
  obtain ⟨_, _, flags, _, rfl⟩ := translate_error h
  exact ⟨0, rfl⟩

/-- A reference is its check, and then what goes on the bus. -/
theorem abandoned_of_reference {mode : Mode} {va : Word} {write : Bool} {x : Mapped → M α} {v u : State} {e : Stop}
    (hx : ∀ m, x m v = .error e u → u = v ∨ u = v.granted) (h : (translate mode va write >>= x) v = .error e u) :
    Abandoned v u := by
  rcases bind_error_iff.mp h with ht | ⟨m, w, ht, hm⟩
  · exact abandoned_of_translate ht
  · obtain rfl := (translate_ok ht).1
    exact abandoned_of_grant (hx m hm)

theorem abandoned_of_readWordIn {mode : Mode} {va : Word} {v u : State} {e : Stop} (h : readWordIn mode va v = .error e u) :
    Abandoned v u :=
  abandoned_of_reference (fun _ hb => (busRead_error hb).1) h

theorem abandoned_of_readByteIn {mode : Mode} {va : Word} {v u : State} {e : Stop} (h : readByteIn mode va v = .error e u) :
    Abandoned v u := by
  refine abandoned_of_reference (fun m hb => ?_) h
  rcases bind_error_iff.mp hb with hr | ⟨w, t, _, hp⟩
  · exact (busRead_error hr).1
  · cases hp

theorem abandoned_of_writeWordIn {mode : Mode} {va w : Word} {v u : State} {e : Stop}
    (h : writeWordIn mode va w v = .error e u) : Abandoned v u :=
  abandoned_of_reference (fun _ hb => (storeMapped_error hb).1) h

theorem abandoned_of_writeByteIn {mode : Mode} {va : Word} {b : Byte} {v u : State} {e : Stop}
    (h : writeByteIn mode va b v = .error e u) : Abandoned v u :=
  abandoned_of_reference (fun _ hb => (storeMapped_error hb).1) h

/-- A register is always there to be read. -/
theorem readReg_ne_error (r : Reg) (s t : State) (e : Stop) : readReg r s ≠ .error e t := by
  obtain ⟨n, h⟩ := readReg_ok r s
  rw [h]
  exact nofun

/-- Only an operand in memory can fail to be read. -/
theorem mem_of_readLoc_error {l : Loc} {v u : State} {e : Stop} (h : readLoc l v = .error e u) :
    ∃ ea, l = .mem ea ∧ readWord ea v = .error e u := by
  cases l with
  | reg r => exact absurd h (readReg_ne_error r v u e)
  | mem ea => exact ⟨ea, rfl, h⟩

theorem mem_of_readLocByte_error {l : Loc} {v u : State} {e : Stop} (h : readLocByte l v = .error e u) :
    ∃ ea, l = .mem ea ∧ readByte ea v = .error e u := by
  cases l with
  | reg r =>
    rcases bind_error_iff.mp h with hr | ⟨w, t, _, hp⟩
    · exact absurd hr (readReg_ne_error r v u e)
    · cases hp
  | mem ea => exact ⟨ea, rfl, h⟩

/-- Only an operand in memory can fail to be written. -/
theorem mem_of_writeLoc_error {l : Loc} {w : Word} {v u : State} {e : Stop} (h : writeLoc l w v = .error e u) :
    ∃ ea, l = .mem ea ∧ writeWord ea w v = .error e u := by
  cases l with
  | reg r => cases h
  | mem ea => exact ⟨ea, rfl, h⟩

theorem mem_of_writeLocByte_error {l : Loc} {b : Byte} {v u : State} {e : Stop} (h : writeLocByte l b v = .error e u) :
    ∃ ea, l = .mem ea ∧ writeByte ea b v = .error e u := by
  cases l with
  | reg r =>
    rcases bind_error_iff.mp h with hb | ⟨_, _, _, hp⟩
    · rcases bind_error_iff.mp hb with hr | ⟨_, _, _, hw⟩
      · exact absurd hr (readReg_ne_error r v u e)
      · cases hw
    · cases hp
  | mem ea => exact ⟨ea, rfl, h⟩

theorem abandoned_of_readLoc {l : Loc} {v u : State} {e : Stop} (h : readLoc l v = .error e u) : Abandoned v u := by
  obtain ⟨ea, _, hr⟩ := mem_of_readLoc_error h
  exact abandoned_of_readWordIn hr

theorem abandoned_of_readLocByte {l : Loc} {v u : State} {e : Stop} (h : readLocByte l v = .error e u) :
    Abandoned v u := by
  obtain ⟨ea, _, hr⟩ := mem_of_readLocByte_error h
  exact abandoned_of_readByteIn hr

theorem abandoned_of_writeLoc {l : Loc} {w : Word} {v u : State} {e : Stop} (h : writeLoc l w v = .error e u) :
    Abandoned v u := by
  obtain ⟨ea, _, hw⟩ := mem_of_writeLoc_error h
  exact abandoned_of_writeWordIn hw

theorem abandoned_of_writeLocByte {l : Loc} {b : Byte} {v u : State} {e : Stop} (h : writeLocByte l b v = .error e u) :
    Abandoned v u := by
  obtain ⟨ea, _, hw⟩ := mem_of_writeLocByte_error h
  exact abandoned_of_writeByteIn hw

/-- A read-modify-write that is not allowed, or whose read half is not answered (spec/20_memory.md R125): nothing is
written. -/
def RewriteFails (k : AbortKind) (ea : Word) (v u : State) : Prop :=
  translate v.mode ea true v = .error (.abort k) u
    ∨ ∃ m g, translate v.mode ea true v = .ok m v ∧ busGrant v = .ok ⟨⟩ g ∧ readCycle m.pa g = .error (.abort k) u

theorem abandoned_of_rewriteFails {k : AbortKind} {ea : Word} {v u : State} (h : RewriteFails k ea v u) : Abandoned v u := by
  rcases h with ht | ⟨m, g, _, hg, hr⟩
  · exact abandoned_of_translate ht
  · exact abandoned_of_grant (.inr ((readCycle_error hr).1.trans (busGrant_ok hg).1))

/-- The step of the PC is made before the bus cycle that fails, after the check that does (spec/00_scope.md R14). -/
theorem regs_of_nextWord_error {write : Bool} {x : Mapped → M α} {v u : State} {k : AbortKind}
    (hx : ∀ m t, x m t = .error (.abort k) u → (u = t ∨ u = t.granted) ∧ k ≠ .mmu)
    (h : (nextWord write >>= x) v = .error (.abort k) u) :
    u.regs = (if k = .mmu then v.regs else { v.regs with pc := v.regs.pc + 2 }) ∧ u.mmu.sr2 = v.mmu.sr2 := by
  rw [run_bind, nextWord_run] at h
  cases ht : translate v.mode v.regs.pc write v with
  | error e t =>
    obtain ⟨hmmu, _, flags, _, hu⟩ := translate_error ht
    subst hu
    rw [ht] at h
    cases h
    cases hmmu
    exact ⟨rfl, rfl⟩
  | ok m t =>
    rw [ht] at h
    obtain ⟨hu, hk⟩ := hx m _ h
    rw [if_neg hk]
    rcases hu with rfl | rfl <;> exact ⟨rfl, rfl⟩

theorem fetchWord_error {v u : State} {k : AbortKind} (h : fetchWord v = .error (.abort k) u) :
    u.regs = (if k = .mmu then v.regs else { v.regs with pc := v.regs.pc + 2 }) ∧ u.mmu.sr2 = v.mmu.sr2 := by
  refine regs_of_nextWord_error (fun m t hb => ?_) h
  obtain ⟨hu, hk⟩ := busRead_error hb
  exact ⟨hu, by rcases hk with hk | hk <;> cases hk <;> decide⟩

theorem storeNext_error {v u : State} {w : Word} {k : AbortKind} (h : storeNext w v = .error (.abort k) u) :
    u.regs = (if k = .mmu then v.regs else { v.regs with pc := v.regs.pc + 2 }) ∧ u.mmu.sr2 = v.mmu.sr2 := by
  refine regs_of_nextWord_error (fun m t hb => ?_) h
  obtain ⟨hu, hk⟩ := storeMapped_error hb
  cases hk
  exact ⟨hu, by decide⟩

/-! What the evaluation of an operand leaves as it was. -/

/-- Between `s` and `t` only operands have been found: registers, the stack overflow request, the receivers, the counter of
free values and what DMA masters write may differ. -/
def OperandOnly (s t : State) : Prop :=
  ∃ n, t = { s.grants n with
    regs := t.regs, pend := { s.pend with stkovf := t.pend.stkovf }, slu1 := t.slu1, slu2 := t.slu2, free := t.free }

theorem grants_operand (n : Nat) (s : State) (g : Regs) (p : Pending) (a b : Slu) (k : Nat) :
    State.grants n { s with regs := g, pend := p, slu1 := a, slu2 := b, free := k }
      = { s.grants n with regs := g, pend := p, slu1 := a, slu2 := b, free := k } := by
  induction n with
  | zero => rfl
  | succ n ih =>
    show (State.grants n _).granted = _
    rw [ih]
    rfl

theorem operandOnly_refl (s : State) : OperandOnly s s := ⟨0, rfl⟩

theorem operandOnly_trans {s t u : State} (h : OperandOnly s t) (h' : OperandOnly t u) : OperandOnly s u := by
  obtain ⟨n, hn⟩ := h
  obtain ⟨m, hm⟩ := h'
  refine ⟨n + m, ?_⟩
  rw [hn, grants_operand, grants_add] at hm
  exact hm

theorem operandOnly_of_readOnly {s t : State} (h : readOnly s t) : OperandOnly s t := by
  obtain ⟨_, hregs, _, _, _, _, _, hpend, _, _, _⟩ := readOnly_fields h
  obtain ⟨n, hn⟩ := h
  refine ⟨n, ?_⟩
  rw [hregs, hpend]
  conv_lhs => rw [hn, grants_eq]
  conv_rhs => rw [grants_eq]

theorem operandOnly_fields {s t : State} (h : OperandOnly s t) : t.ps = s.ps ∧ t.fpp = s.fpp := by
  obtain ⟨n, hn⟩ := h
  rw [hn, grants_eq]
  exact ⟨rfl, rfl⟩

/-- A computation that answers has only found operands. -/
def Finds (x : M α) : Prop := ∀ s a t, x s = .ok a t → OperandOnly s t

theorem finds_pure (a : α) : Finds (pure a : M α) := by
  rintro s _ _ ⟨⟩
  exact operandOnly_refl s

theorem Finds.bind {x : M α} {f : α → M β} (hx : Finds x) (hf : ∀ a, Finds (f a)) : Finds (x >>= f) := by
  intro s b t h
  obtain ⟨a, u, hu, ht⟩ := bind_ok_iff.mp h
  exact operandOnly_trans (hx s a u hu) (hf a u b t ht)

theorem Finds.ite {c : Prop} [Decidable c] {x y : M α} (hx : Finds x) (hy : Finds y) : Finds (if c then x else y) := by
  split
  · exact hx
  · exact hy

theorem finds_readReg (r : Reg) : Finds (readReg r) := by
  intro s a t h
  obtain ⟨n, hr⟩ := readReg_ok r s
  rw [hr] at h
  cases h
  exact ⟨0, rfl⟩

theorem finds_writeReg (r : Reg) (w : Word) : Finds (writeReg r w) := by
  rintro s _ _ ⟨⟩
  exact ⟨0, rfl⟩

theorem finds_noteStackLimit (a : Word) : Finds (noteStackLimit a) := by
  intro s _ t h
  rw [noteStackLimit_run] at h
  cases h
  split <;> exact ⟨0, rfl⟩

theorem finds_readWord (va : Word) : Finds (readWord va) := fun _ _ _ h => operandOnly_of_readOnly (readWord_ok h)

theorem finds_fetchWord : Finds fetchWord := fun _ _ _ h =>
  operandOnly_trans ⟨0, rfl⟩ (operandOnly_of_readOnly (fetchWord_ok h))

theorem finds_increment (r : Reg) (n : Word) : Finds (increment r n) :=
  (finds_readReg r).bind fun a => (finds_writeReg r (a + n)).bind fun _ => finds_pure a

theorem finds_decrement (r : Reg) (n : Word) : Finds (decrement r n) :=
  (finds_readReg r).bind fun a => (finds_writeReg r (a - n)).bind fun _ =>
    .ite ((finds_noteStackLimit _).bind fun _ => finds_pure _) (finds_pure _)

theorem finds_indexed (r : Reg) : Finds (indexed r) :=
  finds_fetchWord.bind fun _ => (finds_readReg r).bind fun _ => finds_pure _

theorem finds_evalField (sz : Nat) (o : Operand) : Finds (evalField sz o) := by
  obtain ⟨mode, r⟩ := o
  cases mode with
  | register => exact finds_pure _
  | registerDeferred => exact (finds_readReg r).bind fun _ => finds_pure _
  | autoinc => exact (finds_increment r _).bind fun _ => finds_pure _
  | autoincDeferred => exact (finds_increment r 2).bind fun _ => (finds_readWord _).bind fun _ => finds_pure _
  | autodec => exact (finds_decrement r _).bind fun _ => finds_pure _
  | autodecDeferred => exact (finds_decrement r 2).bind fun _ => (finds_readWord _).bind fun _ => finds_pure _
  | index => exact (finds_indexed r).bind fun _ => finds_pure _
  | indexDeferred => exact (finds_indexed r).bind fun _ => (finds_readWord _).bind fun _ => finds_pure _

theorem finds_longLoc (o : Operand) : Finds (longLoc o) := by
  refine .ite (finds_pure _) ((finds_evalField 4 o).bind fun l => ?_)
  cases l <;> exact finds_pure _

theorem finds_pop : Finds pop :=
  (finds_readReg .sp).bind fun _ => (finds_readWord _).bind fun v => (finds_writeReg .sp _).bind fun _ => finds_pure v

end Sys2Proof.Machine

namespace Sys2Proof.Machine

variable {α β : Type}

/-! Ending an instruction at a reference that fails: how each instruction comes to the reference, and the end of it there.

A clause's lemma follows the meaning of its instructions up to the reference: `bind_of_ok` for each part that answers,
`bind_of_error` for the one that does not, `runInstr_stops` for the end. -/

/-! The fetch that fails. -/

theorem tick_powerDown {s : State} {n : Nat} {rest : List Input} (h : s.inputs = .powerDown n :: rest) :
    (tick s).run = .poweredDown := by
  simp only [tick, h, List.headD_cons, applyInput, powerDown]

/-- The step that fetches from `f`. -/
theorem step_of_fetchesFrom {s f : State} (h : fetchesFrom s f) : step s = fetchAndRun f := by
  obtain ⟨hpower, hrun, htrap, hwhence⟩ := h
  have hprocessor : processorStep (tick s) = fetchAndRun f := by
    unfold processorStep
    rw [htrap]
    rcases hwhence with ⟨hp, rfl⟩ | ⟨hp, hs⟩
    · simp only [hp, if_true]
    · simp only [hp, Bool.false_eq_true, if_false, hs]
  have hstate : runStateStep (tick s) = fetchAndRun f := by
    unfold runStateStep
    rcases hrun with hr | hr <;> simp only [hr, hprocessor]
  unfold step
  cases hi : s.inputs with
  | nil =>
    have hs : s.run ≠ .poweredDown := hpower.resolve_right fun hne => hne hi
    simp only [hs, if_false, hstate]
  | cons i rest =>
    cases i with
    | powerDown n =>
      rw [tick_powerDown hi] at hrun
      simp at hrun
    | _ => exact hstate

/-- The end of an instruction one of whose references has failed and left `u`: the trap sequence of the abort, and no trace
request sampled (spec/60_exceptions.md R705, R712). -/
def abortTrap (k : AbortKind) (u : State) : Host.Outcome State Fault Refusal :=
  .next (performTrap { vector := k.vector, kind := .ordinary } u)

theorem fetchAndRun_abort {f u : State} {k : AbortKind} (h : fetchWord f = .error (.abort k) u) :
    fetchAndRun f = abortTrap k u := by
  have hop : fetchOpcode f = .error (.abort k) u := by
    simp only [fetchOpcode, run_bind, run_get, h]
  simp only [fetchAndRun, hop, Stop.request, abortTrap]

/-! How an instruction comes to the reference that fails. -/

/-- Each of these instructions is ended in `s` by the abort of a reference that leaves `u`. -/
def Aborts (k : AbortKind) (s u : State) (is : List Instr) : Prop := ∀ i ∈ is, exec i s = abortTrap k u

theorem aborts_singleton {k : AbortKind} {s u : State} {i : Instr} (h : exec i s = abortTrap k u) : Aborts k s u [i] :=
  List.forall_mem_singleton.mpr h

theorem runInstr_stops {m : M Unit} {s u : State} {k : AbortKind} (h : m s = .error (.abort k) u) :
    runInstr m s = abortTrap k u := runInstr_abort h

theorem runReturnTrace_stops {m : M Unit} {s u : State} {k : AbortKind} (h : m s = .error (.abort k) u) :
    runReturnTrace m s = abortTrap k u := by
  simp only [runReturnTrace, h, finish, Stop.request, abortTrap]

section Operands

variable {k : AbortKind} {s s1 u : State} {o d : Operand} {l : Loc} {e : Stop} {α : Type}

theorem operandWord_of_readLoc (he : evalField 2 o s = .ok l s1) (h : readLoc l s1 = .error e u) :
    operandWord o s = .error e u :=
  (bind_of_ok he).trans h

theorem sourceWord_of_readLoc (he : evalField 2 o s = .ok l s1) (h : readLoc l s1 = .error e u) :
    sourceWord o s = .error e u := by
  obtain ⟨ea, rfl, hr⟩ := mem_of_readLoc_error h
  exact (bind_of_ok he).trans (bind_of_error hr)

theorem sourceByte_of_readLocByte (he : evalField 1 o s = .ok l s1) (h : readLocByte l s1 = .error e u) :
    sourceByte o s = .error e u := by
  obtain ⟨ea, rfl, hr⟩ := mem_of_readLocByte_error h
  exact (bind_of_ok he).trans (bind_of_error hr)

/-- A rewrite that fails ends the computation before anything is written (spec/20_memory.md R125). -/
theorem modifyWord_fails {ea : Word} (f : Codes → Word → AluResult 16) (h : RewriteFails k ea s u) :
    modifyWord (.mem ea) f s = .error (.abort k) u := by
  rcases h with ht | ⟨m, g, ht, hg, hr⟩
  · exact bind_of_error (x := translate s.mode ea true) ht
  · simp only [modifyWord, run_bind, run_get, ht, hg, codesNow_run, hr]

theorem modifyByte_fails {ea : Word} (f : Codes → Byte → AluResult 8) (h : RewriteFails k ea s u) :
    modifyByte (.mem ea) f s = .error (.abort k) u := by
  rcases h with ht | ⟨m, g, ht, hg, hr⟩
  · exact bind_of_error (x := translate s.mode ea true) ht
  · simp only [modifyByte, run_bind, run_get, ht, hg, codesNow_run, hr]

theorem storeWord_fails {v : AluResult 16} (h : writeLoc l v.1 s = .error e u) : storeWord l v s = .error e u :=
  bind_of_error h

theorem storeByte_fails {v : AluResult 8} (h : writeLocByte l v.1 s = .error e u) : storeByte l v s = .error e u :=
  bind_of_error h

/-- A double-operand instruction from the source on. -/
theorem doubleWord_run {x : Source Word} {s2 s3 : State} {v : Word} {c : Word → Loc → M Unit}
    (hx : sourceWord o s = .ok x s1) (he : evalField 2 d s1 = .ok l s2) (hv : x.word s2 = .ok v s3) :
    doubleWord o d c s = c v l s3 :=
  (bind_of_ok hx).trans ((bind_of_ok he).trans (bind_of_ok hv))

theorem doubleByte_run {x : Source Byte} {s2 s3 : State} {v : Byte} {c : Byte → Loc → M Unit}
    (hx : sourceByte o s = .ok x s1) (he : evalField 1 d s1 = .ok l s2) (hv : x.byte s2 = .ok v s3) :
    doubleByte o d c s = c v l s3 :=
  (bind_of_ok hx).trans ((bind_of_ok he).trans (bind_of_ok hv))

end Operands

section Clauses

variable {k : AbortKind} {s s1 u : State} {o d : Operand} {l : Loc} (r : Reg)

/-- A pointer or an index word of a word operand that cannot be read. -/
theorem aborts_of_evalField_word (d : Operand) (h : evalField 2 o s = .error (.abort k) u) :
    Aborts k s u [.clr o, .com o, .inc o, .dec o, .neg o, .adc o, .sbc o, .tst o, .ror o, .rol o, .asr o, .asl o, .swab o,
      .sxt o, .mov o d, .cmp o d, .bit o d, .bic o d, .bis o d, .add o d, .sub o d, .mul r o, .div r o, .ash r o, .ashc r o,
      .xor r o, .jmp o, .jsr r o, .mfpi o, .mfpd o] := by
  have field (f : Loc → M Unit) : runInstr (evalField 2 o >>= f) s = abortTrap k u := runInstr_stops (bind_of_error h)
  have source (c : Word → Loc → M Unit) : runInstr (doubleWord o d c) s = abortTrap k u :=
    runInstr_stops (bind_of_error (bind_of_error h))
  have operand (f : Word → M Unit) : runInstr (operandWord o >>= f) s = abortTrap k u :=
    runInstr_stops (bind_of_error (bind_of_error h))
  have jump (f : Word → M Unit) : runInstr (jumpAddress o >>= f) s = abortTrap k u :=
    runInstr_stops (bind_of_error (bind_of_error h))
  simp only [Aborts, List.forall_mem_cons]
  exact ⟨field _, field _, field _, field _, field _, field _, field _, field _, field _, field _, field _, field _, field _,
    field _, source _, source _, source _, source _, source _, source _, source _, operand _, operand _, operand _, operand _,
    field _, jump _, jump _, field _, field _, List.forall_mem_nil _⟩

/-- The same of a byte operand. -/
theorem aborts_of_evalField_byte (d : Operand) (h : evalField 1 o s = .error (.abort k) u) :
    Aborts k s u [.clrb o, .comb o, .incb o, .decb o, .negb o, .adcb o, .sbcb o, .tstb o, .rorb o, .rolb o, .asrb o, .aslb o,
      .movb o d, .cmpb o d, .bitb o d, .bicb o d, .bisb o d, .mtps o, .mfps o] := by
  have field (f : Loc → M Unit) : runInstr (evalField 1 o >>= f) s = abortTrap k u := runInstr_stops (bind_of_error h)
  have source (c : Byte → Loc → M Unit) : runInstr (doubleByte o d c) s = abortTrap k u :=
    runInstr_stops (bind_of_error (bind_of_error h))
  have status : exec (.mfps o) s = abortTrap k u := runInstr_stops ((bind_of_ok (run_get s)).trans (bind_of_error h))
  simp only [Aborts, List.forall_mem_cons]
  exact ⟨field _, field _, field _, field _, field _, field _, field _, field _, field _, field _, field _, field _,
    source _, source _, source _, source _, source _, field _, status, List.forall_mem_nil _⟩

/-- A word operand that cannot be read. -/
theorem aborts_of_readLoc (d : Operand) (he : evalField 2 o s = .ok l s1) (h : readLoc l s1 = .error (.abort k) u) :
    Aborts k s u [.tst o, .mov o d, .cmp o d, .bit o d, .bic o d, .bis o d, .add o d, .sub o d, .mul r o, .div r o, .ash r o,
      .ashc r o] := by
  have test : exec (.tst o) s = abortTrap k u := runInstr_stops ((bind_of_ok he).trans (bind_of_error h))
  have source (c : Word → Loc → M Unit) : runInstr (doubleWord o d c) s = abortTrap k u :=
    runInstr_stops (bind_of_error (sourceWord_of_readLoc he h))
  have operand (f : Word → M Unit) : runInstr (operandWord o >>= f) s = abortTrap k u :=
    runInstr_stops (bind_of_error (operandWord_of_readLoc he h))
  simp only [Aborts, List.forall_mem_cons]
  exact ⟨test, source _, source _, source _, source _, source _, source _, source _, operand _, operand _, operand _,
    operand _, List.forall_mem_nil _⟩

/-- A byte operand that cannot be read. -/
theorem aborts_of_readLocByte (d : Operand) (he : evalField 1 o s = .ok l s1)
    (h : readLocByte l s1 = .error (.abort k) u) :
    Aborts k s u [.tstb o, .movb o d, .cmpb o d, .bitb o d, .bicb o d, .bisb o d, .mtps o] := by
  have read (f : Byte → M Unit) : runInstr (evalField 1 o >>= fun l => readLocByte l >>= f) s = abortTrap k u :=
    runInstr_stops ((bind_of_ok he).trans (bind_of_error h))
  have source (c : Byte → Loc → M Unit) : runInstr (doubleByte o d c) s = abortTrap k u :=
    runInstr_stops (bind_of_error (sourceByte_of_readLocByte he h))
  simp only [Aborts, List.forall_mem_cons]
  exact ⟨read _, source _, source _, source _, source _, source _, read _, List.forall_mem_nil _⟩

/-- An operand that cannot be rewritten. -/
theorem aborts_of_rewriteWord {ea : Word} (he : evalField 2 o s = .ok (.mem ea) s1) (h : RewriteFails k ea s1 u) :
    Aborts k s u [.com o, .inc o, .dec o, .neg o, .adc o, .sbc o, .ror o, .rol o, .asr o, .asl o, .swab o] := by
  have single (f : Codes → Word → AluResult 16) : runInstr (singleWord o f) s = abortTrap k u :=
    runInstr_stops ((bind_of_ok he).trans (modifyWord_fails f h))
  simp only [Aborts, List.forall_mem_cons]
  exact ⟨single _, single _, single _, single _, single _, single _, single _, single _, single _, single _, single _,
    List.forall_mem_nil _⟩

theorem aborts_of_rewriteByte {ea : Word} (he : evalField 1 o s = .ok (.mem ea) s1) (h : RewriteFails k ea s1 u) :
    Aborts k s u [.comb o, .incb o, .decb o, .negb o, .adcb o, .sbcb o, .rorb o, .rolb o, .asrb o, .aslb o] := by
  have single (f : Codes → Byte → AluResult 8) : runInstr (singleByte o f) s = abortTrap k u :=
    runInstr_stops ((bind_of_ok he).trans (modifyByte_fails f h))
  simp only [Aborts, List.forall_mem_cons]
  exact ⟨single _, single _, single _, single _, single _, single _, single _, single _, single _, single _,
    List.forall_mem_nil _⟩

/-- The destination field of a word instruction. -/
theorem aborts_of_destination_word {x : Source Word} (hx : sourceWord o s = .ok x s1)
    (h : evalField 2 d s1 = .error (.abort k) u) :
    Aborts k s u [.mov o d, .cmp o d, .bit o d, .bic o d, .bis o d, .add o d, .sub o d] := by
  have double (c : Word → Loc → M Unit) : runInstr (doubleWord o d c) s = abortTrap k u :=
    runInstr_stops ((bind_of_ok hx).trans (bind_of_error h))
  simp only [Aborts, List.forall_mem_cons]
  exact ⟨double _, double _, double _, double _, double _, double _, double _, List.forall_mem_nil _⟩

theorem aborts_of_destination_byte {x : Source Byte} (hx : sourceByte o s = .ok x s1)
    (h : evalField 1 d s1 = .error (.abort k) u) :
    Aborts k s u [.movb o d, .cmpb o d, .bitb o d, .bicb o d, .bisb o d] := by
  have double (c : Byte → Loc → M Unit) : runInstr (doubleByte o d c) s = abortTrap k u :=
    runInstr_stops ((bind_of_ok hx).trans (bind_of_error h))
  simp only [Aborts, List.forall_mem_cons]
  exact ⟨double _, double _, double _, double _, double _, List.forall_mem_nil _⟩

/-- A double-operand word instruction that has found both operands, and what it does with the destination fails. -/
theorem doubleWord_stops {x : Source Word} {s2 s3 : State} {v : Word} {c : Word → Loc → M Unit}
    (hx : sourceWord o s = .ok x s1) (he : evalField 2 d s1 = .ok l s2) (hv : x.word s2 = .ok v s3)
    (h : c v l s3 = .error (.abort k) u) : runInstr (doubleWord o d c) s = abortTrap k u :=
  runInstr_stops ((doubleWord_run hx he hv).trans h)

theorem doubleByte_stops {x : Source Byte} {s2 s3 : State} {v : Byte} {c : Byte → Loc → M Unit}
    (hx : sourceByte o s = .ok x s1) (he : evalField 1 d s1 = .ok l s2) (hv : x.byte s2 = .ok v s3)
    (h : c v l s3 = .error (.abort k) u) : runInstr (doubleByte o d c) s = abortTrap k u :=
  runInstr_stops ((doubleByte_run hx he hv).trans h)

/-- An operand in memory is not in mode 0. -/
theorem mode_ne_register {sz : Nat} {ea : Word} (he : evalField sz o s = .ok (.mem ea) s1) : o.mode ≠ .register := by
  rcases evalField_ok he with ⟨_, hl, _⟩ | ⟨hm, _⟩
  · cases hl
  · exact hm

theorem moveByte_fails {s2 : State} {v : Byte} {e : Stop} (he : evalField 1 d s1 = .ok l s2)
    (h : writeLocByte l v s = .error e u) : moveByte d v l s = .error e u := by
  obtain ⟨ea, rfl, _⟩ := mem_of_writeLocByte_error h
  have hm := mode_ne_register he
  simp only [moveByte, run_bind, codesNow_run, if_neg hm]
  exact storeByte_fails h

/-- MOV writes its destination and does not read it (spec/42_double_operand.md R331). -/
theorem aborts_mov {x : Source Word} {s2 s3 : State} {v : Word} (hx : sourceWord o s = .ok x s1)
    (he : evalField 2 d s1 = .ok l s2) (hv : x.word s2 = .ok v s3) (h : writeLoc l v s3 = .error (.abort k) u) :
    Aborts k s u [.mov o d] :=
  aborts_singleton (doubleWord_stops hx he hv ((bind_of_ok (codesNow_run s3)).trans (storeWord_fails h)))

theorem aborts_movb {x : Source Byte} {s2 s3 : State} {v : Byte} (hx : sourceByte o s = .ok x s1)
    (he : evalField 1 d s1 = .ok l s2) (hv : x.byte s2 = .ok v s3) (h : writeLocByte l v s3 = .error (.abort k) u) :
    Aborts k s u [.movb o d] :=
  aborts_singleton (doubleByte_stops hx he hv (moveByte_fails he h))

/-- A destination that cannot be read. -/
theorem aborts_of_compareWord {x : Source Word} {s2 s3 : State} {v : Word} (hx : sourceWord o s = .ok x s1)
    (he : evalField 2 d s1 = .ok l s2) (hv : x.word s2 = .ok v s3) (h : readLoc l s3 = .error (.abort k) u) :
    Aborts k s u [.cmp o d, .bit o d] := by
  have compare (f : Codes → Word → Word → Codes) : runInstr (compareWord o d f) s = abortTrap k u :=
    doubleWord_stops hx he hv (bind_of_error h)
  simp only [Aborts, List.forall_mem_cons]
  exact ⟨compare _, compare _, List.forall_mem_nil _⟩

theorem aborts_of_compareByte {x : Source Byte} {s2 s3 : State} {v : Byte} (hx : sourceByte o s = .ok x s1)
    (he : evalField 1 d s1 = .ok l s2) (hv : x.byte s2 = .ok v s3) (h : readLocByte l s3 = .error (.abort k) u) :
    Aborts k s u [.cmpb o d, .bitb o d] := by
  have compare (f : Codes → Byte → Byte → Codes) : runInstr (compareByte o d f) s = abortTrap k u :=
    doubleByte_stops hx he hv (bind_of_error h)
  simp only [Aborts, List.forall_mem_cons]
  exact ⟨compare _, compare _, List.forall_mem_nil _⟩

/-- A destination that cannot be rewritten. -/
theorem aborts_of_combineWord {x : Source Word} {s2 s3 : State} {v ea : Word} (hx : sourceWord o s = .ok x s1)
    (he : evalField 2 d s1 = .ok (.mem ea) s2) (hv : x.word s2 = .ok v s3) (h : RewriteFails k ea s3 u) :
    Aborts k s u [.bic o d, .bis o d, .add o d, .sub o d] := by
  have combine (f : Word → Codes → Word → AluResult 16) :
      runInstr (doubleWord o d fun v l => modifyWord l (f v)) s = abortTrap k u :=
    doubleWord_stops hx he hv (modifyWord_fails _ h)
  simp only [Aborts, List.forall_mem_cons]
  exact ⟨combine _, combine _, combine _, combine _, List.forall_mem_nil _⟩

theorem aborts_of_combineByte {x : Source Byte} {s2 s3 : State} {v : Byte} {ea : Word} (hx : sourceByte o s = .ok x s1)
    (he : evalField 1 d s1 = .ok (.mem ea) s2) (hv : x.byte s2 = .ok v s3) (h : RewriteFails k ea s3 u) :
    Aborts k s u [.bicb o d, .bisb o d] := by
  have combine (f : Byte → Codes → Byte → AluResult 8) :
      runInstr (doubleByte o d fun v l => modifyByte l (f v)) s = abortTrap k u :=
    doubleByte_stops hx he hv (modifyByte_fails _ h)
  simp only [Aborts, List.forall_mem_cons]
  exact ⟨combine _, combine _, List.forall_mem_nil _⟩

/-- CLR writes its destination and does not read it (spec/41_single_operand.md R280). -/
theorem aborts_clr (he : evalField 2 o s = .ok l s1) (h : writeLoc l 0 s1 = .error (.abort k) u) : Aborts k s u [.clr o] :=
  aborts_singleton (runInstr_stops ((bind_of_ok he).trans (storeWord_fails h)))

theorem aborts_clrb (he : evalField 1 o s = .ok l s1) (h : writeLocByte l 0 s1 = .error (.abort k) u) :
    Aborts k s u [.clrb o] :=
  aborts_singleton (runInstr_stops ((bind_of_ok he).trans (storeByte_fails h)))

theorem aborts_xor {v ea : Word} {s2 : State} (he : evalField 2 o s = .ok (.mem ea) s1) (hv : readReg r s1 = .ok v s2)
    (h : RewriteFails k ea s2 u) : Aborts k s u [.xor r o] :=
  aborts_singleton (runInstr_stops ((bind_of_ok he).trans ((bind_of_ok hv).trans (modifyWord_fails _ h))))

/-- SXT writes the sign of the codes before it (spec/41_single_operand.md R305). -/
theorem aborts_sxt (he : evalField 2 o s = .ok l s1)
    (h : writeLoc l (if s.ps.getLsbD 3 then 0o177777 else 0) s1 = .error (.abort k) u) : Aborts k s u [.sxt o] := by
  have hps : s1.ps = s.ps := (operandOnly_fields (finds_evalField 2 o s l s1 he)).1
  have hw : writeLoc l (aluSxt (psCodes s1.ps)).1 s1 = .error (.abort k) u := by
    rw [hps]
    exact h
  exact aborts_singleton (runInstr_stops ((bind_of_ok he).trans ((bind_of_ok (codesNow_run s1)).trans (storeWord_fails hw))))

/-- MFPS writes the low byte of the PS before it (spec/45_misc_cc_mmu_ps.md R454). -/
theorem aborts_mfps (he : evalField 1 o s = .ok l s1)
    (h : writeLocByte l (s.ps.extractLsb' 0 8) s1 = .error (.abort k) u) : Aborts k s u [.mfps o] := by
  obtain ⟨ea, rfl, _⟩ := mem_of_writeLocByte_error h
  have hm := mode_ne_register he
  refine aborts_singleton (runInstr_stops ((bind_of_ok (run_get s)).trans ((bind_of_ok he).trans
    ((bind_of_ok (codesNow_run s1)).trans ?_))))
  rw [if_neg hm]
  exact storeByte_fails h

/-! The previous space, jumps and returns. -/

/-- What MFPI and MFPD read: R6 of the previous mode, another register, or a word of the previous mode's space
(spec/45_misc_cc_mmu_ps.md R450). -/
def readPrevious : Loc → M Word
  | .reg r => readPrevReg r
  | .mem ea => do readWordIn (← previousMode) ea

theorem moveFromPrevious_run (he : evalField 2 o s = .ok l s1) :
    moveFromPrevious o s
      = (readPrevious l >>= fun v => codesNow >>= fun k => push v >>= fun p => setCodes p (moveCodes k v)) s1 := by
  refine (bind_of_ok he).trans ?_
  cases l <;> rfl

theorem readPrevious_eq (mode : Mode) (hps : psPrevious s1.ps = mode) (l : Loc) :
    readPrevious l s1 = match l with
      | .reg .sp => readSpOf mode s1
      | .reg r => readReg r s1
      | .mem ea => readWordIn mode ea s1 := by
  subst hps
  cases l with
  | reg r => cases r <;> rfl
  | mem ea => rfl

theorem aborts_of_push {v : Word} {s2 : State} (he : evalField 2 o s = .ok l s1) (hv : readPrevious l s1 = .ok v s2)
    (h : push v s2 = .error (.abort k) u) : Aborts k s u [.mfpi o, .mfpd o] := by
  have move : moveFromPrevious o s = .error (.abort k) u :=
    (moveFromPrevious_run he).trans ((bind_of_ok hv).trans ((bind_of_ok (codesNow_run s2)).trans (bind_of_error h)))
  simp only [Aborts, List.forall_mem_cons]
  exact ⟨runInstr_stops move, runInstr_stops move, List.forall_mem_nil _⟩

theorem aborts_of_readPrevious (he : evalField 2 o s = .ok l s1) (h : readPrevious l s1 = .error (.abort k) u) :
    Aborts k s u [.mfpi o, .mfpd o] := by
  have move : moveFromPrevious o s = .error (.abort k) u := (moveFromPrevious_run he).trans (bind_of_error h)
  simp only [Aborts, List.forall_mem_cons]
  exact ⟨runInstr_stops move, runInstr_stops move, List.forall_mem_nil _⟩

/-- JSR counts its push for the stack limit and reads the link before it writes (spec/44_jump_subroutine_trap.md R401). -/
theorem aborts_jsr {ea sp link : Word} {s2 s3 s4 : State} (he : evalField 2 o s = .ok (.mem ea) s1)
    (hsp : readReg .sp s1 = .ok sp s2) (hn : noteStackLimit (sp - 2) (s2.withReg .sp (sp - 2)) = .ok ⟨⟩ s3)
    (hl : readReg r s3 = .ok link s4) (h : writeWord (sp - 2) link s4 = .error (.abort k) u) :
    Aborts k s u [.jsr r o] := by
  have target : jumpAddress o s = .ok ea s1 := bind_of_ok he
  exact aborts_singleton (runInstr_stops ((bind_of_ok target).trans ((bind_of_ok hsp).trans
    ((bind_of_ok (writeReg_run _ _ _)).trans ((bind_of_ok hn).trans ((bind_of_ok hl).trans (bind_of_error h)))))))

theorem aborts_of_returnFromTrap (h : returnFromTrap s = .error (.abort k) u) : Aborts k s u [.rti, .rtt] := by
  simp only [Aborts, List.forall_mem_cons]
  exact ⟨runInstr_stops h, runReturnTrace_stops h, List.forall_mem_nil _⟩

theorem aborts_of_moveToPrevious (h : moveToPrevious o s = .error (.abort k) u) : Aborts k s u [.mtpi o, .mtpd o] := by
  simp only [Aborts, List.forall_mem_cons]
  exact ⟨runInstr_stops h, runInstr_stops h, List.forall_mem_nil _⟩

/-- MTPI and MTPD write in the space of the mode that was previous before them: the pop and the field leave the PS
(spec/45_misc_cc_mmu_ps.md R452). -/
theorem moveToPrevious_of_write {pc ea : Word} {s2 : State} {e : Stop} (hpop : pop s = .ok pc s1)
    (he : evalField 2 o s1 = .ok (.mem ea) s2) (h : writeWordIn (psPrevious s.ps) ea pc s2 = .error e u) :
    moveToPrevious o s = .error e u := by
  have hfound : OperandOnly s s2 := operandOnly_trans (finds_pop s pc s1 hpop) (finds_evalField 2 o s1 _ s2 he)
  have hmode : previousMode s2 = .ok (psPrevious s.ps) s2 := by
    rw [← (operandOnly_fields hfound).1]
    rfl
  exact (bind_of_ok hpop).trans ((bind_of_ok he).trans ((bind_of_ok (codesNow_run s2)).trans
    ((bind_of_ok hmode).trans (bind_of_error h))))

theorem jumpTo_run (pc : Word) (s : State) : jumpTo pc s = .ok ⟨⟩ { s with regs := { s.regs with pc := pc } } := rfl

theorem aborts_rts {x : Word} (hx : readReg r s = .ok x s1)
    (h : pop { s1 with regs := { s1.regs with pc := x } } = .error (.abort k) u) : Aborts k s u [.rts r] := by
  exact aborts_singleton (runInstr_stops ((bind_of_ok hx).trans ((bind_of_ok (jumpTo_run x s1)).trans (bind_of_error h))))

theorem setWidth_shiftLeft_one (nn : BitVec 6) : (nn.setWidth 16 <<< 1 : Word) = BitVec.ofNat 16 (2 * nn.toNat) := by
  apply BitVec.eq_of_toNat_eq
  simp only [BitVec.toNat_shiftLeft, BitVec.toNat_setWidth, BitVec.toNat_ofNat]
  omega

theorem readReg_five_withSp (s : State) (w : Word) : readReg .r5 (s.withReg .sp w) = .ok s.regs.r5 (s.withReg .sp w) := by
  obtain ⟨_, _, _, _, _, h5, _⟩ := withSp_other s.regs s.mode w
  exact h5 ▸ rfl

theorem aborts_mark {nn : BitVec 6}
    (h : (let t := s.withReg .sp (s.regs.pc + BitVec.ofNat 16 (2 * nn.toNat))
      pop { t with regs := { t.regs with pc := s.regs.r5 } } = .error (.abort k) u)) : Aborts k s u [.mark nn] := by
  rw [← setWidth_shiftLeft_one] at h
  exact aborts_singleton (runInstr_stops ((bind_of_ok (run_get s)).trans ((bind_of_ok (writeReg_run _ _ _)).trans
    ((bind_of_ok (readReg_five_withSp s _)).trans ((bind_of_ok (jumpTo_run _ _)).trans (bind_of_error h))))))

end Clauses

section Floating

variable {k : AbortKind} {s s1 u : State} {o : Operand} {e : Stop} {fea : Word} {fmt : Fmt}

/-- With the option installed the meaning of a floating-point instruction runs (spec/30_encoding.md R217). -/
theorem fpInstr_stops {body : Word → FpModes → M Unit} (hp : s.cfg.fpPresent = true)
    (h : body (s.regs.pc - 2) (fpModes s.fpp.fps) s = .error (.abort k) u) : runInstr (fpInstr body) s = abortTrap k u := by
  refine runInstr_stops ?_
  simp only [fpInstr, run_bind, run_get, hp, if_true]
  exact h

theorem withFpLoc_fails {c : FpLoc → M Unit} (hm : o.mode ≠ .register) (h : fpAddress fmt.bytes o s = .error e u) :
    withFpLoc fea fmt o c s = .error e u := by
  rw [withFpLoc, if_neg hm]
  exact bind_of_error h

theorem withFpSource_fails {c : FpLoc → Quad → M Unit} (hm : o.mode ≠ .register) (h : fpSource fmt o s = .error e u) :
    withFpSource fea fmt o c s = .error e u := by
  rw [withFpSource, if_neg hm]
  exact bind_of_error h

theorem withFpLoc_run {c : FpLoc → M Unit} {l : FpLoc} (h : fpOperandAt fmt o s l s1) :
    withFpLoc fea fmt o c s = c l s1 := by
  unfold fpOperandAt at h
  unfold withFpLoc
  split at h
  · rename_i hm
    obtain ⟨rfl, n, hn, rfl⟩ := h
    simp only [hm, if_true, hn]
  · rename_i hm
    rw [if_neg hm]
    exact bind_of_ok h

theorem withFpSource_run {c : FpLoc → Quad → M Unit} {l : FpLoc} {v : Quad} (h : fpSourceAt fmt o s l v s1) :
    withFpSource fea fmt o c s = c l v s1 := by
  unfold fpSourceAt at h
  unfold withFpSource
  split at h
  · rename_i hm
    obtain ⟨rfl, n, hn, rfl, rfl⟩ := h
    simp only [hm, if_true, hn]
    rfl
  · rename_i hm
    rw [if_neg hm]
    exact bind_of_ok h

theorem readAc_run (fmt : Fmt) (n : Fin 6) (s : State) : readAc fmt n s = .ok (accRead fmt n s) s := rfl

variable (ac : Ac) (hp : s.cfg.fpPresent = true)

include hp

theorem aborts_of_fpAddress (hm : o.mode ≠ .register)
    (h : fpAddress (fpModes s.fpp.fps).fmt.bytes o s = .error (.abort k) u) : Aborts k s u [.clrf o, .stf ac o] := by
  simp only [Aborts, List.forall_mem_cons]
  exact ⟨fpInstr_stops hp (withFpLoc_fails hm h),
    fpInstr_stops hp ((bind_of_ok (readAc_run _ _ s)).trans (withFpLoc_fails hm h)), List.forall_mem_nil _⟩

theorem aborts_of_fpAddress_other (hm : o.mode ≠ .register)
    (h : fpAddress (fpModes s.fpp.fps).fmt.other.bytes o s = .error (.abort k) u) : Aborts k s u [.stcfd ac o] :=
  aborts_singleton (fpInstr_stops hp ((bind_of_ok (readAc_run _ _ s)).trans (withFpLoc_fails hm h)))

theorem aborts_of_fpSource (hm : o.mode ≠ .register)
    (h : fpSource (fpModes s.fpp.fps).fmt o s = .error (.abort k) u) :
    Aborts k s u [.tstf o, .absf o, .negf o, .mulf ac o, .modf ac o, .addf ac o, .ldf ac o, .subf ac o, .cmpf ac o,
      .divf ac o] := by
  have source (c : Word → FpModes → FpLoc → Quad → M Unit) :
      runInstr (fpInstr fun fea md => withFpSource fea md.fmt o (c fea md)) s = abortTrap k u :=
    fpInstr_stops hp (withFpSource_fails hm h)
  have operand (c : Word → FpModes → Quad → M Unit) :
      runInstr (fpInstr fun fea md => withFpOperand fea md o (c fea md)) s = abortTrap k u := source _
  simp only [Aborts, List.forall_mem_cons]
  exact ⟨source _, source _, source _, operand _, operand _, operand _, source _, operand _, operand _, operand _,
    List.forall_mem_nil _⟩

theorem aborts_of_fpSource_other (hm : o.mode ≠ .register)
    (h : fpSource (fpModes s.fpp.fps).fmt.other o s = .error (.abort k) u) : Aborts k s u [.ldcdf ac o] :=
  aborts_singleton (fpInstr_stops hp (withFpSource_fails hm h))

theorem aborts_fp_of_evalField (h : evalField 2 o s = .error (.abort k) u) : Aborts k s u [.stfps o, .stexp ac o] := by
  simp only [Aborts, List.forall_mem_cons]
  exact ⟨fpInstr_stops hp (bind_of_error h), fpInstr_stops hp ((bind_of_ok (readAc_run _ _ s)).trans (bind_of_error h)),
    List.forall_mem_nil _⟩

theorem aborts_stst_of_longLoc (h : longLoc o s = .error (.abort k) u) : Aborts k s u [.stst o] :=
  aborts_singleton (fpInstr_stops hp (bind_of_error h))

theorem aborts_fp_of_operandWord (h : operandWord o s = .error (.abort k) u) : Aborts k s u [.ldfps o, .ldexp ac o] := by
  simp only [Aborts, List.forall_mem_cons]
  exact ⟨fpInstr_stops hp (bind_of_error h), fpInstr_stops hp (bind_of_error h), List.forall_mem_nil _⟩

theorem aborts_ldcif (h : readInteger (fpModes s.fpp.fps) o s = .error (.abort k) u) : Aborts k s u [.ldcif ac o] :=
  aborts_singleton (fpInstr_stops hp (bind_of_error h))

/-- STCFI stores the integer part where it fits, else 0 (spec/47_fp_instructions.md R553). -/
theorem aborts_stcfi {n limit : Int} (hn : n = fpTrunc (accRead (fpModes s.fpp.fps).fmt (acIndex ac) s))
    (hlimit : limit = integerLimit (fpModes s.fpp.fps))
    (h : writeInteger (fpModes s.fpp.fps) o (if -limit ≤ n ∧ n < limit then n else 0) s = .error (.abort k) u) :
    Aborts k s u [.stcfi ac o] := by
  subst hn hlimit
  refine aborts_singleton (fpInstr_stops hp ((bind_of_ok (readAc_run _ _ s)).trans (bind_of_error ?_)))
  simpa only [decide_eq_true_eq] using h

theorem aborts_stfps {l : Loc} (he : evalField 2 o s = .ok l s1) (h : writeLoc l s.fpp.fps s1 = .error (.abort k) u) :
    Aborts k s u [.stfps o] := by
  rw [← (operandOnly_fields (finds_evalField 2 o s l s1 he)).2] at h
  exact aborts_singleton (fpInstr_stops hp ((bind_of_ok he).trans ((bind_of_ok (run_get s1)).trans (bind_of_error h))))

theorem aborts_stexp {l : Loc} (he : evalField 2 o s = .ok l s1)
    (h : writeLoc l (BitVec.ofInt 16 ((fpExp (accRead (fpModes s.fpp.fps).fmt (acIndex ac) s) : Int) - 0o200)) s1
      = .error (.abort k) u) : Aborts k s u [.stexp ac o] :=
  aborts_singleton (fpInstr_stops hp ((bind_of_ok (readAc_run _ _ s)).trans ((bind_of_ok he).trans (bind_of_error h))))

theorem aborts_stst {l : LongLoc} (hl : longLoc o s = .ok l s1)
    (h : writeLong (s.fpp.fec.setWidth 16) s.fpp.fea l s1 = .error (.abort k) u) : Aborts k s u [.stst o] := by
  rw [← (operandOnly_fields (finds_longLoc o s l s1 hl)).2] at h
  exact aborts_singleton (fpInstr_stops hp ((bind_of_ok hl).trans ((bind_of_ok (run_get s1)).trans (bind_of_error h))))

theorem aborts_clrf {l : FpLoc} (hl : fpOperandAt (fpModes s.fpp.fps).fmt o s l s1)
    (h : writeFp (fpModes s.fpp.fps).fmt 0 l s1 = .error (.abort k) u) : Aborts k s u [.clrf o] :=
  aborts_singleton (fpInstr_stops hp ((withFpLoc_run hl).trans (bind_of_error h)))

theorem aborts_stf {l : FpLoc} (hl : fpOperandAt (fpModes s.fpp.fps).fmt o s l s1)
    (h : writeFp (fpModes s.fpp.fps).fmt (accRead (fpModes s.fpp.fps).fmt (acIndex ac) s) l s1 = .error (.abort k) u) :
    Aborts k s u [.stf ac o] :=
  aborts_singleton (fpInstr_stops hp ((bind_of_ok (readAc_run _ _ s)).trans ((withFpLoc_run hl).trans h)))

theorem aborts_stcfd {l : FpLoc} (hl : fpOperandAt (fpModes s.fpp.fps).fmt.other o s l s1)
    (h : writeFp (fpModes s.fpp.fps).fmt.other
      (fpConvert (fpModes s.fpp.fps) (fpModes s.fpp.fps).fmt (accRead (fpModes s.fpp.fps).fmt (acIndex ac) s)).value l s1
      = .error (.abort k) u) : Aborts k s u [.stcfd ac o] :=
  aborts_singleton (fpInstr_stops hp ((bind_of_ok (readAc_run _ _ s)).trans ((withFpLoc_run hl).trans (bind_of_error h))))

theorem fpUnary_stops {l : FpLoc} {v : Quad} {f : Quad → Quad} (hl : fpSourceAt (fpModes s.fpp.fps).fmt o s l v s1)
    (h : writeFp (fpModes s.fpp.fps).fmt (f v) l s1 = .error (.abort k) u) :
    runInstr (fpUnary o f) s = abortTrap k u :=
  fpInstr_stops hp ((withFpSource_run hl).trans (bind_of_error h))

omit hp in
theorem fpMagnitude_eq (v : Quad) : fpMagnitude v = if fpExp v = 0 then 0 else v &&& 0x7FFFFFFFFFFFFFFF := by
  simp only [fpMagnitude, fpZero, beq_iff_eq]

omit hp in
theorem fpNegate_eq (v : Quad) : fpNegate v = if fpExp v = 0 then 0 else v ^^^ 0x8000000000000000 := by
  simp only [fpNegate, fpZero, beq_iff_eq]

theorem aborts_absf {l : FpLoc} {v : Quad} (hl : fpSourceAt (fpModes s.fpp.fps).fmt o s l v s1)
    (h : writeFp (fpModes s.fpp.fps).fmt (if fpExp v = 0 then 0 else v &&& 0x7FFFFFFFFFFFFFFF) l s1 = .error (.abort k) u) :
    Aborts k s u [.absf o] := by
  rw [← fpMagnitude_eq] at h
  exact aborts_singleton (fpUnary_stops hp hl h)

theorem aborts_negf {l : FpLoc} {v : Quad} (hl : fpSourceAt (fpModes s.fpp.fps).fmt o s l v s1)
    (h : writeFp (fpModes s.fpp.fps).fmt (if fpExp v = 0 then 0 else v ^^^ 0x8000000000000000) l s1 = .error (.abort k) u) :
    Aborts k s u [.negf o] := by
  rw [← fpNegate_eq] at h
  exact aborts_singleton (fpUnary_stops hp hl h)

end Floating

/-- Settles O21: each clause is a way to come to a reference that fails, and the end of the instruction there. -/
theorem operandAbort : Obligations.OperandAbort := by
  intro k s u o d r ac trapped trap kept rewriteFails
  have htrapped : trapped = abortTrap k u := by
    cases k <;> rfl
  have htrap : ∀ {is}, Aborts k s u is → trap is := fun h i hi => (h i hi).trans htrapped.symm
  refine ⟨fun f hf h => ?fetch, fun v w h => ?pc,
    fun l w b v => ⟨abandoned_of_readLoc, abandoned_of_readLocByte, abandoned_of_writeLoc, abandoned_of_writeLocByte,
      fun ea => abandoned_of_rewriteFails⟩,
    fun h => htrap (aborts_of_evalField_word r d h), fun h => htrap (aborts_of_evalField_byte d h),
    fun l s1 he => ?word, fun l s1 he => ?byte, fun x s1 hx => ?sourceWord, fun x s1 hx => ?sourceByte, fun h => ?pop,
    fun pc s1 hpop => ?popped, fun x s1 hx h => htrap (aborts_rts r hx h), fun nn h => htrap (aborts_mark h),
    fun hp => ?floating⟩
  case fetch =>
    exact ⟨(step_of_fetchesFrom hf).trans ((fetchAndRun_abort h).trans htrapped.symm), (fetchWord_error h).2⟩
  case pc =>
    have hregs := (h.elim fetchWord_error storeNext_error).1
    cases k <;> exact hregs
  case word =>
    have hps : psPrevious s1.ps = psPrevious s.ps :=
      congrArg psPrevious (operandOnly_fields (finds_evalField 2 o s l s1 he)).1
    refine ⟨fun h => htrap (aborts_of_readLoc r d he h), fun v s2 hv h => htrap (aborts_of_push he ?_ h),
      fun h => htrap (aborts_clr he h), fun h => htrap (aborts_sxt he h), ?_⟩
    · rw [readPrevious_eq _ hps]
      cases l with
      | reg q => cases q <;> exact hv
      | mem ea => exact hv
    · rintro ea rfl
      refine ⟨fun h => htrap (aborts_of_rewriteWord he h), fun v s2 hv h => htrap (aborts_xor r he hv h),
        fun h => htrap (aborts_of_readPrevious he ?_),
        fun sp s2 s3 link s4 hsp hn hl h => htrap (aborts_jsr r he hsp hn hl h)⟩
      rw [readPrevious_eq _ hps]
      exact h
  case byte =>
    refine ⟨fun h => htrap (aborts_of_readLocByte d he h), fun h => htrap (aborts_clrb he h),
      fun h => htrap (aborts_mfps he h), ?_⟩
    rintro ea rfl h
    exact htrap (aborts_of_rewriteByte he h)
  case sourceWord =>
    refine ⟨fun h => htrap (aborts_of_destination_word hx h), fun l s2 v s3 he hv =>
      ⟨fun h => htrap (aborts_mov hx he hv h), fun h => htrap (aborts_of_compareWord hx he hv h), ?_⟩⟩
    rintro ea rfl h
    exact htrap (aborts_of_combineWord hx he hv h)
  case sourceByte =>
    refine ⟨fun h => htrap (aborts_of_destination_byte hx h), fun l s2 v s3 he hv =>
      ⟨fun h => htrap (aborts_movb hx he hv h), fun h => htrap (aborts_of_compareByte hx he hv h), ?_⟩⟩
    rintro ea rfl h
    exact htrap (aborts_of_combineByte hx he hv h)
  case pop =>
    have returns := htrap (aborts_of_returnFromTrap (bind_of_error h))
    have moves := htrap (aborts_of_moveToPrevious (o := o) (bind_of_error h))
    exact List.forall_mem_append.mpr ⟨returns, moves⟩
  case popped =>
    exact ⟨fun h => htrap (aborts_of_returnFromTrap ((bind_of_ok hpop).trans (bind_of_error h))),
      fun h => htrap (aborts_of_moveToPrevious ((bind_of_ok hpop).trans (bind_of_error h))),
      fun ea s2 he h => htrap (aborts_of_moveToPrevious (moveToPrevious_of_write hpop he h))⟩
  case floating =>
    exact ⟨fun hm => ⟨fun h => htrap (aborts_of_fpAddress ac hp hm h),
        fun h => htrap (aborts_of_fpAddress_other ac hp hm h),
        fun h => htrap (aborts_of_fpSource ac hp hm h), fun h => htrap (aborts_of_fpSource_other ac hp hm h)⟩,
      fun h => htrap (aborts_fp_of_evalField ac hp h), fun h => htrap (aborts_stst_of_longLoc hp h),
      fun h => htrap (aborts_fp_of_operandWord ac hp h), fun h => htrap (aborts_ldcif ac hp h),
      fun h => htrap (aborts_stcfi ac hp rfl rfl h),
      fun l s1 he => ⟨fun h => htrap (aborts_stfps hp he h), fun h => htrap (aborts_stexp ac hp he h)⟩,
      fun l s1 hl h => htrap (aborts_stst hp hl h),
      fun l s1 hl => ⟨fun h => htrap (aborts_clrf hp hl h), fun h => htrap (aborts_stf ac hp hl h)⟩,
      fun l v s2 hl => ⟨fun h => htrap (aborts_absf hp hl h), fun h => htrap (aborts_negf hp hl h)⟩,
      fun l s1 hl h => htrap (aborts_stcfd ac hp hl h)⟩

end Sys2Proof.Machine

namespace Sys2Proof.Machine

/-! Soundness along every step, the state after reset, and the stack. -/

/-- Settles O6: soundness is one of the parts that every step keeps. -/
theorem stepKeepsSound : Obligations.StepKeepsSound :=
  fun s t hs h => (keptBy_step s t h).sound hs

theorem slu_reset (u : Unit2) : State.reset.slu u = Slu.reset := by
  cases u <;> rfl

theorem within_all_zero (mask : Word) : (Vector.replicate 8 (0 : Word)).all (within mask) = true := by
  simp [within]

theorem mmu_reset_sound : State.reset.mmu.Sound :=
  ⟨by decide, by decide, within_all_zero pdrImplemented, within_all_zero pdrImplemented⟩

theorem reset_sound : State.reset.sound = true :=
  (sound_iff _).mpr ⟨Memory.wf_nil, by decide, mmu_reset_sound, by decide, by decide⟩

/-- Settles O8: each value is that of `State.reset`, and soundness holds part by part. -/
theorem resetValues : Obligations.ResetValues := by
  refine ⟨rfl, rfl, rfl, rfl, rfl, rfl, rfl, rfl, rfl, fun u => ?_, reset_sound, rfl, rfl⟩
  rw [slu_reset]
  exact ⟨by decide, by decide⟩

/-- A pop is the read of its word, then the step of R6 (spec/10_state.md R24). -/
theorem pop_of_readWord {s u t : State} {sp w : Word} (hsp : readReg .sp s = .ok sp u) (hw : readWord sp u = .ok w t) :
    pop s = .ok w (t.withReg .sp (sp + 2)) := by
  rw [pop, bind_of_ok hsp, bind_of_ok hw]
  rfl

/-- A push is the write of its word once R6 is moved and the limit noted (spec/10_state.md R24). -/
theorem push_of_readReg {s u : State} {sp : Word} (hsp : readReg .sp s = .ok sp u) (v : Word) :
    push v s = writeWord (sp - 2) v
      (if s.mode = .kernel ∧ (sp - 2).toNat < 0o400 then
        { u.withReg .sp (sp - 2) with pend := { u.pend with stkovf := true } }
      else u.withReg .sp (sp - 2)) := by
  obtain ⟨n, hn⟩ := readReg_ok .sp s
  obtain ⟨-, rfl⟩ : s.reg .sp = sp ∧ { s with free := n } = u := by
    rw [hsp] at hn
    cases hn
    exact ⟨rfl, rfl⟩
  rw [push, bind_of_ok hsp]
  rfl

/-- Settles O17: a pop and a push are the read of R6 and the reference, with the step of R6 between or after. -/
theorem stackOperations : Obligations.StackOperations :=
  fun _ _ _ v hsp => ⟨fun _ _ hw => pop_of_readWord hsp hw, fun _ _ hw => (push_of_readReg hsp v).trans hw⟩

end Sys2Proof.Machine

namespace Sys2Proof.Machine

/-! The mapping of a reference (spec/20_memory.md R110 to R133): the fields of an address and of a page register as
numbers. -/

theorem pageOf_val (va : Word) : (pageOf va).val = va.toNat / 8192 := by
  have h := va.isLt
  simp [pageOf, Nat.shiftRight_eq_div_pow]
  omega

theorem pageOf_unique {va : Word} {n : Fin 8} (h : n.val = va.toNat / 8192) : n = pageOf va :=
  Fin.ext (h.trans (pageOf_val va).symm)

theorem blockOf_toNat (va : Word) : (blockOf va).toNat = va.toNat / 64 % 128 := by
  simp [blockOf, Nat.shiftRight_eq_div_pow]

theorem dibOf_toNat (va : Word) : (dibOf va).toNat = va.toNat % 64 := by
  simp [dibOf]

theorem unmapped_toNat (va : Word) :
    (unmapped va).toNat = if va.toNat < 0o160000 then va.toNat else va.toNat + 0o17600000 := by
  have h := va.isLt
  unfold unmapped
  split
  · simp only [BitVec.toNat_setWidth]; omega
  · simp only [BitVec.toNat_ofNat]; omega

theorem append_toNat {n k : Nat} (x : BitVec n) (y : BitVec k) : (x ++ y).toNat = x.toNat * 2 ^ k + y.toNat := by
  rw [BitVec.toNat_append, Nat.shiftLeft_eq, Nat.mul_comm, Nat.two_pow_add_eq_or_of_lt y.isLt]

theorem map22_toNat (par va : Word) :
    (map22 par va).toNat = (par.toNat + va.toNat / 64 % 128) % 65536 * 64 + va.toNat % 64 := by
  rw [map22, append_toNat]
  simp [blockOf_toNat, dibOf_toNat]

theorem map18_toNat (par va : Word) :
    (map18 par va).toNat =
      let pa := (par.toNat + va.toNat / 64 % 128) % 4096 * 64 + va.toNat % 64
      if pa < 0o760000 then pa else pa + 0o17000000 := by
  have hpa : ((par.extractLsb' 0 12 + (blockOf va).setWidth 12) ++ dibOf va : BitVec 18).toNat
      = (par.toNat + va.toNat / 64 % 128) % 4096 * 64 + va.toNat % 64 := by
    rw [append_toNat]
    simp [blockOf_toNat, dibOf_toNat]
  unfold map18
  dsimp only
  rw [hpa]
  split
  · rw [BitVec.toNat_setWidth, hpa]; omega
  · rw [BitVec.toNat_ofNat]; omega

theorem relocate_toNat (m : Mmu) (p : PageSet) (va : Word) :
    (relocate m p va).toNat =
      let block := (m.par p (pageOf va)).toNat + va.toNat / 64 % 128
      if m.sr3.getLsbD 4 then block % 65536 * 64 + va.toNat % 64
      else
        let pa := block % 4096 * 64 + va.toNat % 64
        if pa < 0o760000 then pa else pa + 0o17000000 := by
  unfold relocate
  split
  · exact map22_toNat _ va
  · exact map18_toNat _ va

theorem ofField_bits (b : BitVec 2) : (Mode.ofField b).bits = b := by
  revert b; decide

theorem ofField_eq_iff (b : BitVec 2) (m : Mode) : Mode.ofField b = m ↔ b = m.bits := by
  revert b; cases m <;> decide

/-- Settles O15: what `translate` answers, its addresses as numbers. -/
theorem relocation : Obligations.Relocation := by
  refine ⟨⟨rfl, rfl, rfl, rfl⟩, fun s => ⟨ofField_bits _, ofField_eq_iff _ .kernel, ofField_eq_iff _ .user⟩,
    fun _ _ => ⟨rfl, rfl⟩, fun s t mode va write m h => ?_⟩
  obtain ⟨rfl, ⟨hoff, rfl⟩ | ⟨hon, p, hp, -, rfl⟩⟩ := translate_ok h
  · exact ⟨rfl, fun _ => unmapped_toNat va, fun hon => absurd (hoff.symm.trans hon) Bool.false_ne_true⟩
  · exact ⟨rfl, fun hoff => absurd (hoff.symm.trans hon) Bool.false_ne_true,
      fun _ => ⟨p, pageOf va, hp, pageOf_val va, rfl, relocate_toNat _ p va⟩⟩

/-! The conditions of an abort as numbers (spec/20_memory.md R125, R126). -/

theorem acfOf_eq_iff (pdr : Word) (c : BitVec 2) : acfOf pdr = c ↔ pdr.toNat / 2 % 4 = c.toNat := by
  rw [← BitVec.toNat_inj]
  simp [acfOf, Nat.shiftRight_eq_div_pow]

theorem nonresident_iff (pdr : Word) : nonresident pdr = true ↔ pdr.toNat / 2 % 4 = 0 ∨ pdr.toNat / 2 % 4 = 2 := by
  simp [nonresident, acfOf_eq_iff]

theorem getLsbD_iff (w : Word) (i : Nat) : w.getLsbD i = true ↔ w.toNat / 2 ^ i % 2 = 1 := by
  rw [← BitVec.testBit_toNat, Nat.testBit_eq_decide_div_mod_eq, decide_eq_true_iff]

theorem outsideLength_iff (pdr va : Word) : outsideLength pdr va = true ↔
    if pdr.toNat / 8 % 2 = 1 then va.toNat / 64 % 128 < pdr.toNat / 256 % 128
    else pdr.toNat / 256 % 128 < va.toNat / 64 % 128 := by
  have hed : pdr.getLsbD 3 = true ↔ pdr.toNat / 8 % 2 = 1 := getLsbD_iff pdr 3
  have hplf : (pdr.extractLsb' 8 7).toNat = pdr.toNat / 256 % 128 := by
    simp [Nat.shiftRight_eq_div_pow]
  simp only [outsideLength, hplf, blockOf_toNat, hed]
  split <;> exact decide_eq_true_iff

theorem readOnlyViolation_iff (pdr : Word) (write : Bool) :
    readOnlyViolation pdr write = true ↔ pdr.toNat / 2 % 4 = 1 ∧ write = true := by
  simp [readOnlyViolation, acfOf_eq_iff]

theorem pageFlags_eq_zero_iff (pdr va : Word) (write : Bool) : pageFlags pdr va write = 0 ↔
    nonresident pdr = false ∧ outsideLength pdr va = false ∧ readOnlyViolation pdr write = false := by
  unfold pageFlags
  cases nonresident pdr <;> cases outsideLength pdr va <;> cases readOnlyViolation pdr write <;> decide

/-- No flag is raised exactly when the page is resident, the block inside it, and a write allowed. -/
theorem pageFlags_accepts_iff (pdr va : Word) (write : Bool) : pageFlags pdr va write = 0 ↔
    (pdr.toNat / 2 % 4 = 3 ∨ (pdr.toNat / 2 % 4 = 1 ∧ write = false))
      ∧ if pdr.toNat / 8 % 2 = 1 then pdr.toNat / 256 % 128 ≤ va.toNat / 64 % 128
        else va.toNat / 64 % 128 ≤ pdr.toNat / 256 % 128 := by
  simp only [pageFlags_eq_zero_iff, ← Bool.not_eq_true, nonresident_iff, outsideLength_iff, readOnlyViolation_iff]
  have hacf : pdr.toNat / 2 % 4 < 4 := Nat.mod_lt _ (by decide)
  generalize pdr.toNat / 2 % 4 = acf at hacf ⊢
  cases write <;> split <;> simp <;> omega

/-! SR0 after an abort (spec/20_memory.md R127). -/

theorem getLsbD_merge (mask new old : Word) (i : Nat) :
    (merge mask new old).getLsbD i = if mask.getLsbD i then new.getLsbD i else old.getLsbD i := by
  by_cases hi : i < 16
  · simp only [merge, BitVec.getLsbD_or, BitVec.getLsbD_and, BitVec.getLsbD_not, hi, decide_true, Bool.true_and]
    cases mask.getLsbD i <;> simp
  · simp only [BitVec.getLsbD_of_ge _ i (Nat.le_of_not_lt hi), ite_self]

theorem merge_and_disjoint {mask k : Word} (h : mask &&& k = 0) (new old : Word) :
    merge mask new old &&& k = old &&& k := by
  refine BitVec.eq_of_getLsbD_eq fun i _ => ?_
  have hi : (mask.getLsbD i && k.getLsbD i) = false := by
    rw [← BitVec.getLsbD_and, h]
    exact BitVec.getLsbD_zero
  rw [BitVec.getLsbD_and, BitVec.getLsbD_and, getLsbD_merge]
  cases hm : mask.getLsbD i with
  | false => rfl
  | true =>
    rw [hm, Bool.true_and] at hi
    rw [hi, Bool.and_false, Bool.and_false]

theorem merge_and_mask (mask new old : Word) : merge mask new old &&& mask = new &&& mask := by
  refine BitVec.eq_of_getLsbD_eq fun i _ => ?_
  rw [BitVec.getLsbD_and, BitVec.getLsbD_and, getLsbD_merge]
  cases mask.getLsbD i with
  | false => rw [Bool.and_false, Bool.and_false]
  | true => rfl

theorem and_eq_self_of_within {M w : Word} (h : within M w = true) : w &&& M = w := by
  refine BitVec.eq_of_getLsbD_eq fun i _ => ?_
  rw [BitVec.getLsbD_and]
  cases hw : w.getLsbD i with
  | false => rfl
  | true => rw [within_iff.mp h i hw, Bool.true_and]

theorem or_and_disjoint {M k w : Word} (hw : within M w = true) (hk : M &&& k = 0) (x : Word) :
    (x ||| w) &&& k = x &&& k := by
  have hwk : w &&& k = 0 := by
    rw [← and_eq_self_of_within hw, BitVec.and_assoc, hk]
    exact BitVec.and_zero
  rw [BitVec.and_or_distrib_right, hwk]
  exact BitVec.or_zero

/-- The mode and page of the aborted reference, in the places SR0 gives them (spec/10_state.md R49). -/
def sr0Fields (mode : Mode) (va : Word) : Word :=
  (mode.bits.setWidth 16 <<< 5) ||| (va.extractLsb' 13 3).setWidth 16 <<< 1

theorem sr0AfterAbort_unfrozen {sr0 : Word} (h : sr0 &&& 0o160000 = 0) (flags : Word) (mode : Mode) (va : Word) :
    sr0AfterAbort sr0 flags mode va = merge 0o156 (sr0Fields mode va) sr0 ||| flags := if_pos h

theorem sr0AfterAbort_frozen {sr0 : Word} (h : sr0 &&& 0o160000 ≠ 0) (flags : Word) (mode : Mode) (va : Word) :
    sr0AfterAbort sr0 flags mode va = sr0 ||| flags := if_neg h

/-- Outside mode and page SR0 is the old one with the flags raised. -/
theorem sr0AfterAbort_and {k : Word} (hk : 0o156 &&& k = 0) (sr0 flags : Word) (mode : Mode) (va : Word) :
    sr0AfterAbort sr0 flags mode va &&& k = (sr0 ||| flags) &&& k := by
  by_cases h : sr0 &&& 0o160000 = 0
  · rw [sr0AfterAbort_unfrozen h, BitVec.and_or_distrib_right, merge_and_disjoint hk, ← BitVec.and_or_distrib_right]
  · rw [sr0AfterAbort_frozen h]

theorem extract_page_of_fields (w : Word) : w.extractLsb' 1 3 = (w &&& 0o156).extractLsb' 1 3 := by
  rw [BitVec.extractLsb'_and]
  exact (BitVec.and_allOnes).symm

theorem extract_mode_of_fields (w : Word) : w.extractLsb' 5 2 = (w &&& 0o156).extractLsb' 5 2 := by
  rw [BitVec.extractLsb'_and]
  exact (BitVec.and_allOnes).symm

theorem sr0Fields_page (mode : Mode) (va : Word) : (sr0Fields mode va).extractLsb' 1 3 = va.extractLsb' 13 3 := by
  unfold sr0Fields
  generalize va.extractLsb' 13 3 = page
  revert page
  cases mode <;> decide

theorem sr0Fields_mode (mode : Mode) (va : Word) : (sr0Fields mode va).extractLsb' 5 2 = mode.bits := by
  unfold sr0Fields
  generalize va.extractLsb' 13 3 = page
  revert page
  cases mode <;> decide

/-- The flags an aborted reference raises (spec/20_memory.md R125, R126; D4). -/
def abortFlagsOf (s : State) (mode : Mode) (va : Word) (write : Bool) : Word :=
  match pageSetOf mode with
  | none => 0o100000
  | some p => pageFlags (s.mmu.pdr p (pageOf va)) va write

/-- What an aborted reference leaves, its flags named once. -/
theorem translate_abort {s t : State} {mode : Mode} {va : Word} {write : Bool} {e : Stop}
    (h : translate mode va write s = .error e t) :
    e = .abort .mmu ∧ abortFlagsOf s mode va write ≠ 0 ∧ within abortFlags (abortFlagsOf s mode va write) = true
      ∧ t = { s with mmu := { s.mmu with sr0 := sr0AfterAbort s.mmu.sr0 (abortFlagsOf s mode va write) mode va } } := by
  obtain ⟨rfl, -, flags, hflags, rfl⟩ := translate_error h
  unfold abortFlagsOf
  cases hp : pageSetOf mode with
  | none =>
    rw [hp] at hflags
    obtain rfl := hflags
    exact ⟨rfl, show (0o100000 : Word) ≠ 0 by decide, show within abortFlags 0o100000 = true by decide, rfl⟩
  | some p =>
    rw [hp] at hflags
    obtain ⟨rfl, hne⟩ := hflags
    exact ⟨rfl, hne, within_pageFlags _ va write, rfl⟩

/-- A reference with relocation on is made exactly when its mode has page registers and its page accepts it. -/
theorem translate_answers_iff {s : State} (hon : s.mmu.sr0.getLsbD 0 = true) (mode : Mode) (va : Word) (write : Bool) :
    (∃ m, translate mode va write s = .ok m s) ↔
      ∃ p, pageSetOf mode = some p ∧ pageFlags (s.mmu.pdr p (pageOf va)) va write = 0 := by
  constructor
  · rintro ⟨m, h⟩
    obtain ⟨-, ⟨hoff, -⟩ | ⟨-, p, hp, hf, -⟩⟩ := translate_ok h
    · exact absurd (hoff.symm.trans hon) Bool.false_ne_true
    · exact ⟨p, hp, hf⟩
  · rintro ⟨p, hp, hf⟩
    cases h : translate mode va write s with
    | ok m t => exact ⟨m, by rw [(translate_ok h).1]⟩
    | error e t =>
      obtain ⟨-, hne, -, -⟩ := translate_abort h
      simp only [abortFlagsOf, hp] at hne
      exact absurd hf hne

/-- Settles O16: when a reference is made, the flags of one that is not, and the fields of SR0 after it. -/
theorem mmuAborts : Obligations.MmuAborts := by
  refine ⟨⟨rfl, rfl, rfl, rfl⟩, fun _ _ => ⟨rfl, rfl⟩, fun s mode va write hon => ?_,
    fun s t mode va write e n hn h => ?_⟩
  · rw [translate_answers_iff hon]
    constructor
    · rintro ⟨p, hp, hf⟩
      exact ⟨p, pageOf va, hp, pageOf_val va, (pageFlags_accepts_iff _ va write).mp hf⟩
    · rintro ⟨p, n, hp, hn, hf⟩
      obtain rfl := pageOf_unique hn
      exact ⟨p, hp, (pageFlags_accepts_iff _ va write).mpr hf⟩
  · obtain rfl := pageOf_unique hn
    obtain ⟨rfl, hne, hwithin, rfl⟩ := translate_abort h
    intro flags
    have hflags : abortFlagsOf s mode va write = flags := by
      simp only [abortFlagsOf, flags]
      cases pageSetOf mode with
      | none => rfl
      | some p => simp only [pageFlags, nonresident_iff, outsideLength_iff, readOnlyViolation_iff]
    rw [hflags] at hne hwithin ⊢
    refine ⟨rfl, rfl, hne, ?_, ?_, fun hfrozen => ?_, fun hfree => ?_⟩
    · rw [sr0AfterAbort_and (by decide), BitVec.and_or_distrib_right]
      congr 1
      exact and_eq_self_of_within hwithin
    · rw [sr0AfterAbort_and (by decide), or_and_disjoint hwithin (by decide)]
    · rw [sr0AfterAbort_frozen hfrozen, or_and_disjoint hwithin (by decide)]
    · have hfields : sr0AfterAbort s.mmu.sr0 flags mode va &&& 0o156 = sr0Fields mode va &&& 0o156 := by
        rw [sr0AfterAbort_unfrozen hfree, or_and_disjoint hwithin (by decide), merge_and_mask]
      constructor
      · rw [extract_page_of_fields, hfields, ← extract_page_of_fields, sr0Fields_page]
      · rw [extract_mode_of_fields, hfields, ← extract_mode_of_fields, sr0Fields_mode]

end Sys2Proof.Machine

namespace Sys2Proof.Machine

/-! What a store leaves unchanged (spec/10_state.md R21, spec/20_memory.md R106, R131). -/

/-! Register destinations. -/

theorem spCell_withSp_other (g : Regs) {m m' : Mode} (h : m' ≠ m) (w : Word) :
    spCell (g.withSp m w) m' = spCell g m' := by
  cases m <;> cases m' <;> first | rfl | exact absurd rfl h

theorem regCell_withReg_same (g : Regs) (m : Mode) (r : Reg) (w : Word) : regCell (g.withReg m r w) m r = w := by
  cases r with
  | sp => cases m <;> rfl
  | _ => rfl

theorem regCell_withReg_other (g : Regs) (m : Mode) {r q : Reg} (h : q ≠ r) (w : Word) :
    regCell (g.withReg m r w) m q = regCell g m q := by
  cases r with
  | sp =>
    cases q with
    | sp => exact absurd rfl h
    | _ => cases m <;> rfl
  | _ =>
    cases q with
    | sp => cases m <;> rfl
    | _ => first | rfl | exact absurd rfl h

theorem spCell_withReg_other (g : Regs) {m m' : Mode} (h : m' ≠ m) (r : Reg) (w : Word) :
    spCell (g.withReg m r w) m' = spCell g m' := by
  cases r with
  | sp => exact spCell_withSp_other g h w
  | _ => cases m' <;> rfl

theorem sameRegsBut_withReg (g : Regs) (m : Mode) (r : Reg) (w : Word) : sameRegsBut [r] m g (g.withReg m r w) :=
  ⟨fun _ hq => regCell_withReg_other g m (List.ne_of_not_mem_cons hq) w, fun _ hm => spCell_withReg_other g hm r w⟩

/-- A register that is read changes at most the counter of free values. -/
theorem readReg_frame {r : Reg} {s u : State} {w : Word} (h : readReg r s = .ok w u) :
    u = { s with free := u.free } := by
  obtain ⟨n, hn⟩ := readReg_ok r s
  rw [h] at hn
  cases hn
  rfl

theorem rewritesWord_reg {s t : State} {r : Reg} {d x : Word} {p : Bool} (h : rewritesWord (.reg r) s d x p t) :
    ∃ n, t = State.withReg { s with free := n } r x := by
  obtain ⟨u, hu, rfl, -⟩ := h
  exact ⟨u.free, by rw [← readReg_frame hu]⟩

/-- A byte written to a register keeps its high byte (spec/40_addressing_modes.md R241). -/
theorem rewritesByte_reg {s t : State} {r : Reg} {d x : Byte} {p : Bool} (h : rewritesByte (.reg r) s d x p t) :
    ∃ (n : Nat) (hi : Byte), t = State.withReg { s with free := n } r (wordOf hi x) := by
  obtain ⟨w, u, hu, -, hw, -⟩ := h
  obtain ⟨old, v, hv, hw⟩ := bind_ok_iff.mp hw
  cases hw
  refine ⟨v.free, highByte old, ?_⟩
  rw [readReg_frame hv, readReg_frame hu]

theorem lowByte_wordOf (hi lo : Byte) : (wordOf hi lo).extractLsb' 0 8 = lo := BitVec.extractLsb'_append_eq_right

/-! Memory destinations. -/

/-- Nothing but a receiver emptied and a free value taken: what a read cycle changes. -/
def DevicesOnly (s t : State) : Prop := t = { s with slu1 := t.slu1, slu2 := t.slu2, free := t.free }

theorem devicesOnly_readIo {r : IoReg} {s t : State} {w : Word} (h : readIo r s = .ok w t) : DevicesOnly s t := by
  cases r <;> cases h <;> first
    | exact rfl
    | (rename_i u; cases u <;> exact rfl)

/-- The cycle of a read changes nothing of memory, and nothing at all below the I/O page. -/
theorem readCycle_frame {pa : PAddr} {s t : State} {w : Word} (h : readCycle pa s = .ok w t) :
    DevicesOnly s t ∧ (isIoPage pa = false → t = s) := by
  simp only [readCycle, run_bind, run_get] at h
  cases hio : isIoPage pa with
  | true =>
    simp only [hio, if_true] at h
    refine ⟨?_, fun hc => nomatch hc⟩
    cases hd : ioDecode s.cfg pa with
    | none => simp [hd] at h
    | some r =>
      simp only [hd] at h
      exact devicesOnly_readIo h
  | false =>
    simp only [hio, Bool.false_eq_true, if_false] at h
    split at h
    · split at h
      · simp at h
      · cases h
        exact ⟨rfl, fun _ => rfl⟩
    · simp at h

/-- The write half of a cycle reaches the I/O page, or the bytes of its lane and the W bit of its page. -/
theorem writeBack_frame {m : Mapped} {size : Size} {v : Word} {s t : State} {p : Bool}
    (h : writeBack m size v s = .ok p t) :
    (isIoPage m.pa = true
        ∧ t = { s with ps := t.ps, mmu := t.mmu, board := t.board, slu1 := t.slu1, slu2 := t.slu2, free := t.free })
      ∨ (isIoPage m.pa = false ∧ p = false ∧ t = { s with
          mem := s.mem.writeLane (wordPlace s m.pa) (laneOf size m.pa) v, mmu := s.mmu.marked m.page }) := by
  obtain ⟨-, rfl, hw⟩ := writeBack_ok h
  rcases writeCycle_ok hw with ⟨hio, r, -, hr⟩ | ⟨hio, -, rfl⟩
  · obtain ⟨t', ht, hs⟩ := writeIo_ok r (laneOf size m.pa) v { s with mmu := s.mmu.marked m.page }
    rw [hr] at ht
    cases ht
    exact .inl ⟨hio, hs⟩
  · exact .inr ⟨hio, by simp [isPs, hio], rfl⟩

theorem getLsbD_zero_eq {n : Nat} (x : BitVec n) : x.getLsbD 0 = decide (x.toNat % 2 = 1) := by
  rw [← BitVec.testBit_toNat, Nat.testBit_zero]

/-- The even address below, or the odd one, as bit 0 of the physical address says. -/
theorem memoryAddr_eq (cfg : Config) (pa : PAddr) :
    memoryAddr cfg pa = evenAddr (memoryAddr cfg pa) + if pa.getLsbD 0 then 1 else 0 := by
  have hparity : memoryAddr cfg pa % 2 = pa.toNat % 2 := by
    unfold memoryAddr
    cases cfg.busWidth <;> dsimp only
    omega
  simp only [getLsbD_zero_eq, evenAddr, decide_eq_true_eq]
  split <;> omega

/-- A byte written leaves every other byte of memory. -/
theorem read_writeLane_byte (m : Memory) (cfg : Config) (pa : PAddr) (v : Word) {a : Nat} (h : a ≠ memoryAddr cfg pa) :
    (m.writeLane (evenAddr (memoryAddr cfg pa)) (laneOf .byte pa) v).read a = m.read a := by
  rw [memoryAddr_eq] at h
  unfold laneOf
  split at h
  · rename_i hodd
    rw [if_pos hodd]
    exact Memory.read_write_other _ _ _ h
  · rename_i heven
    rw [if_neg heven]
    exact Memory.read_write_other _ _ _ h

/-- A store of a size through a checked reference, after the turn `g` of the DMA masters, perhaps after a read cycle. -/
def StoredAt (m : Mapped) (g : State) (size : Size) (p : Bool) (t : State) : Prop :=
  ∃ u v, DevicesOnly g u ∧ (isIoPage m.pa = false → u = g) ∧ writeBack m size v u = .ok p t

section Stored

variable {s g t : State} {ea : Word} {m : Mapped} {p : Bool}

theorem storedAt_of_storeMapped {size : Size} {v : Word} (h : storeMapped m size v s = .ok p t) :
    StoredAt m s.granted size p t :=
  ⟨s.granted, v, rfl, fun _ => rfl, storeMapped_ok h⟩

theorem storedAt_of_writeLoc (hm : translate s.mode ea true s = .ok m s) {x : Word}
    (h : writeLoc (.mem ea) x s = .ok p t) : StoredAt m s.granted .word p t := by
  obtain ⟨m', hm', hs⟩ := writeWordIn_ok (show writeWordIn s.mode ea x s = .ok p t from h)
  rw [hm] at hm'
  cases hm'
  exact storedAt_of_storeMapped hs

theorem storedAt_of_writeLocByte (hm : translate s.mode ea true s = .ok m s) {x : Byte}
    (h : writeLocByte (.mem ea) x s = .ok p t) : StoredAt m s.granted .byte p t := by
  obtain ⟨m', hm', hs⟩ := writeByteIn_ok (show writeByteIn s.mode ea x s = .ok p t from h)
  rw [hm] at hm'
  cases hm'
  exact storedAt_of_storeMapped hs

theorem storedAt_of_rewritesWord (hm : translate s.mode ea true s = .ok m s) {d x : Word}
    (h : rewritesWord (.mem ea) s d x p t) : StoredAt m s.granted .word p t := by
  obtain ⟨m', g', u, hm', hg, hr, hw⟩ := h
  rw [hm] at hm'
  cases hm'
  obtain rfl := (busGrant_ok hg).1
  obtain ⟨hdev, hmem⟩ := readCycle_frame hr
  exact ⟨u, x, hdev, hmem, hw⟩

theorem storedAt_of_rewritesByte (hm : translate s.mode ea true s = .ok m s) {d x : Byte}
    (h : rewritesByte (.mem ea) s d x p t) : StoredAt m s.granted .byte p t := by
  obtain ⟨m', w, g', u, hm', hg, hr, -, hw⟩ := h
  rw [hm] at hm'
  cases hm'
  obtain rfl := (busGrant_ok hg).1
  obtain ⟨hdev, hmem⟩ := readCycle_frame hr
  exact ⟨u, _, hdev, hmem, hw⟩

/-- What every store leaves: the processor but for its own registers on the I/O page, and there memory. -/
theorem StoredAt.frame {size : Size} (h : StoredAt m g size p t) :
    t.regs = g.regs ∧ t.fpp = g.fpp ∧ t.cfg = g.cfg ∧ t.run = g.run ∧ t.pend = g.pend ∧ t.bus = g.bus
      ∧ (isIoPage m.pa = true → t.mem = g.mem)
      ∧ (isIoPage m.pa = false → p = false ∧ t = { g with mem := t.mem, mmu := g.mmu.marked m.page }) := by
  obtain ⟨u, v, hdev, hmem, hw⟩ := h
  rcases writeBack_frame hw with ⟨hio, ht⟩ | ⟨hio, rfl, rfl⟩
  · rw [ht, hdev]
    exact ⟨rfl, rfl, rfl, rfl, rfl, rfl, fun _ => rfl, by simp [hio]⟩
  · obtain rfl := hmem hio
    exact ⟨rfl, rfl, rfl, rfl, rfl, rfl, by simp [hio], fun _ => ⟨rfl, rfl⟩⟩

/-- The memory a store leaves: that of the DMA masters, or that with the lane written. -/
theorem StoredAt.mem {size : Size} (h : StoredAt m g size p t) :
    t.mem = g.mem ∨ ∃ v, t.mem = g.mem.writeLane (wordPlace g m.pa) (laneOf size m.pa) v := by
  obtain ⟨u, v, hdev, hmem, hw⟩ := h
  rcases writeBack_frame hw with ⟨-, ht⟩ | ⟨hio, -, rfl⟩
  · exact .inl (by rw [ht, hdev])
  · obtain rfl := hmem hio
    exact .inr ⟨v, rfl⟩

theorem StoredAt.read_other {size : Size} (h : StoredAt m g size p t) {a : Nat} (ha : a ≠ wordPlace g m.pa)
    (ha' : a ≠ wordPlace g m.pa + 1) : t.mem.read a = g.mem.read a := by
  rcases h.mem with hm | ⟨v, hm⟩ <;> rw [hm]
  exact Memory.read_writeLane_other _ _ _ _ ha ha'

theorem StoredAt.read_other_byte (h : StoredAt m g .byte p t) {a : Nat} (ha : a ≠ memoryAddr g.cfg m.pa) :
    t.mem.read a = g.mem.read a := by
  rcases h.mem with hm | ⟨v, hm⟩ <;> rw [hm]
  exact read_writeLane_byte _ _ _ _ ha

end Stored

/-- Settles O31: a register destination is one cell; a memory destination is one store, perhaps after its read cycle. -/
theorem destinationFrame : Obligations.DestinationFrame := by
  refine ⟨fun s t r d x p h => ?_, fun s r x => ⟨rfl, sameRegsBut_withReg _ _ r x⟩, fun s t r d x p h => ?_,
    fun s g t ea m p hm hg => ?_⟩
  · obtain ⟨n, rfl⟩ := rewritesWord_reg h
    exact ⟨rfl, sameRegsBut_withReg _ _ r x⟩
  · obtain ⟨n, hi, rfl⟩ := rewritesByte_reg h
    refine ⟨rfl, sameRegsBut_withReg _ _ r _, ?_⟩
    exact (congrArg _ (regCell_withReg_same _ _ r _)).trans (lowByte_wordOf hi x)
  · obtain rfl := (busGrant_ok hg).1
    intro byte marked h
    have hbyte : byte → StoredAt m s.granted .byte p t := by
      rintro (⟨d, x, hx⟩ | ⟨x, hx⟩)
      · exact storedAt_of_rewritesByte hm hx
      · exact storedAt_of_writeLocByte hm hx
    obtain ⟨size, hs⟩ : ∃ size, StoredAt m s.granted size p t := by
      rcases h with hb | ⟨d, x, hx⟩ | ⟨x, hx⟩
      · exact ⟨_, hbyte hb⟩
      · exact ⟨_, storedAt_of_rewritesWord hm hx⟩
      · exact ⟨_, storedAt_of_writeLoc hm hx⟩
    have hmarked : s.mmu.marked m.page = marked := by
      simp only [marked]
      rcases m.page with _ | ⟨p, n⟩ <;> rfl
    obtain ⟨hregs, hfpp, hcfg, hrun, hpend, hbus, hio, hmem⟩ := hs.frame
    rw [granted_mmu, hmarked] at hmem
    exact ⟨hregs, hfpp, hcfg, hrun, hpend, hbus, fun a ha ha' => hs.read_other ha ha',
      fun hb a ha => (hbyte hb).read_other_byte ha, hio, hmem⟩

end Sys2Proof.Machine

namespace Sys2Proof.Machine

/-! The registers of the I/O page as a program reaches them with the MMU disabled (spec/10_state.md R40 to R67). -/

theorem translate_disabled {s : State} (h : s.mmu.sr0.getLsbD 0 = false) (mode : Mode) (va : Word) (write : Bool) :
    translate mode va write s = .ok { pa := unmapped va, page := none } s := by
  have hoff : s.relocating = false := h
  simp only [translate, run_bind, run_get, hoff, Bool.false_eq_true, if_false, run_pure]

/-- The register at an offset in the I/O page: one of the chip set, else one of the board. -/
def registerAt (cfg : Config) (o : Nat) : Option IoReg := (chipReg o).or (boardReg cfg o)

theorem ioDecode_eq (cfg : Config) (pa : PAddr) : ioDecode cfg pa = registerAt cfg (evenAddr (pa.toNat % 0o20000)) := by
  unfold ioDecode registerAt
  dsimp only
  cases chipReg (evenAddr (pa.toNat % 0o20000)) <;> rfl

/-- The even address `a` of the top 8K bytes is that of register `r`. -/
structure IsAddressOf (cfg : Config) (a : Word) (r : IoReg) : Prop where
  even : a.toNat % 2 = 0
  high : 0o160000 ≤ a.toNat
  decoded : registerAt cfg (a.toNat % 0o20000) = some r

theorem unmapped_io {a : Word} (h : 0o160000 ≤ a.toNat) : (unmapped a).toNat = a.toNat + 0o17600000 := by
  have ha := a.isLt
  rw [unmapped, if_neg (by omega), BitVec.toNat_ofNat]
  omega

namespace IsAddressOf

variable {cfg : Config} {a : Word} {r : IoReg}

theorem toNat_succ (h : IsAddressOf cfg a r) : (a + 1).toNat = a.toNat + 1 := by
  have := a.isLt
  have := h.even
  rw [BitVec.toNat_add]
  show (a.toNat + 1) % 2 ^ 16 = a.toNat + 1
  omega

/-- Either byte of the register is on the I/O page. -/
theorem high_of (h : IsAddressOf cfg a r) {x : Word} (hx : x = a ∨ x = a + 1) : 0o160000 ≤ x.toNat := by
  have := h.high
  rcases hx with rfl | rfl
  · exact this
  · rw [h.toNat_succ]; omega

theorem isIoPage_of (h : IsAddressOf cfg a r) {x : Word} (hx : x = a ∨ x = a + 1) : isIoPage (unmapped x) = true := by
  have := h.high_of hx
  rw [isIoPage, unmapped_io this, decide_eq_true_iff]
  omega

/-- Either byte of the register decodes to it (spec/20_memory.md R111). -/
theorem ioDecode_of (h : IsAddressOf cfg a r) {x : Word} (hx : x = a ∨ x = a + 1) :
    ioDecode cfg (unmapped x) = some r := by
  have heven := h.even
  have hplace : evenAddr ((unmapped x).toNat % 0o20000) = a.toNat % 0o20000 := by
    rw [unmapped_io (h.high_of hx), evenAddr]
    rcases hx with rfl | rfl
    · omega
    · rw [h.toNat_succ]; omega
  rw [ioDecode_eq, hplace, h.decoded]

theorem low_lane (h : IsAddressOf cfg a r) : (unmapped a).getLsbD 0 = false := by
  have := h.even
  rw [getLsbD_zero_eq, unmapped_io h.high, decide_eq_false_iff_not]
  omega

theorem high_lane (h : IsAddressOf cfg a r) : (unmapped (a + 1)).getLsbD 0 = true := by
  have := h.even
  rw [getLsbD_zero_eq, unmapped_io (h.high_of (.inr rfl)), h.toNat_succ, decide_eq_true_iff]
  omega

end IsAddressOf

section Access

variable {s g t : State} {a : Word} {r : IoReg}

theorem readCycle_register (ha : IsAddressOf g.cfg a r) {x : Word} (hx : x = a ∨ x = a + 1) :
    readCycle (unmapped x) g = readIo r g := by
  simp only [readCycle, run_bind, run_get, ha.isIoPage_of hx, if_true, ha.ioDecode_of hx]

theorem busRead_register (hg : busGrant s = .ok ⟨⟩ g) (ha : IsAddressOf g.cfg a r) {x : Word}
    (hx : x = a ∨ x = a + 1) : busRead (unmapped x) s = readIo r g := by
  rw [busRead, bind_of_ok hg, readCycle_register ha hx]

/-- A word read of a register is its read cycle; a byte read gives its half of the word (spec/20_memory.md R105). -/
theorem reads_register (hg : busGrant s = .ok ⟨⟩ g) (hoff : s.mmu.sr0.getLsbD 0 = false) (ha : IsAddressOf g.cfg a r)
    {v : Word} (h : readIo r g = .ok v t) :
    readWord a s = .ok v t ∧ readByte a s = .ok (v.extractLsb' 0 8) t
      ∧ readByte (a + 1) s = .ok (v.extractLsb' 8 8) t := by
  have hword : ∀ x, x = a ∨ x = a + 1 → busRead (unmapped x) s = .ok v t := fun x hx =>
    (busRead_register hg ha hx).trans h
  have hbyte : ∀ x, x = a ∨ x = a + 1 → readByte x s = .ok (selectByte (unmapped x) v) t := fun x hx => by
    simp only [readByte, readByteIn, run_bind, run_get, translate_disabled hoff, hword x hx, run_pure]
  refine ⟨?_, ?_, ?_⟩
  · simp only [readWord, readWordIn, run_bind, run_get, translate_disabled hoff, hword a (.inl rfl)]
  · rw [hbyte a (.inl rfl), selectByte, ha.low_lane]
    rfl
  · rw [hbyte (a + 1) (.inr rfl), selectByte, ha.high_lane]
    rfl

theorem storeMapped_register (hg : busGrant s = .ok ⟨⟩ g) (ha : IsAddressOf g.cfg a r) {x : Word}
    (hx : x = a ∨ x = a + 1) {size : Size} {v : Word} (h : writeIo r (laneOf size (unmapped x)) v g = .ok ⟨⟩ t) :
    storeMapped { pa := unmapped x, page := none } size v s = .ok (decide (r = .ps)) t := by
  have hanswers : busAnswers g.cfg (unmapped x) = true := by
    simp [busAnswers, ha.isIoPage_of hx, ha.ioDecode_of hx]
  have hps : isPs g.cfg (unmapped x) = decide (r = .ps) := by
    rw [isPs, ha.isIoPage_of hx, ha.ioDecode_of hx]
    rfl
  rw [storeMapped, bind_of_ok hg]
  simp only [writeBack, run_bind, run_get, hanswers, if_true, markWritten_run, Mmu.marked, writeCycle,
    ha.isIoPage_of hx, ha.ioDecode_of hx, h, run_pure, hps]

/-- A write of a register is its write cycle on the lanes driven (spec/20_memory.md R106). -/
theorem writes_register (hg : busGrant s = .ok ⟨⟩ g) (hoff : s.mmu.sr0.getLsbD 0 = false) (ha : IsAddressOf g.cfg a r)
    {f : Lane → Word → State} (h : ∀ lane v, writeIo r lane v g = .ok ⟨⟩ (f lane v)) (w : Word) (b : Byte) :
    writeWord a w s = .ok (decide (r = .ps)) (f .word w)
      ∧ writeByte a b s = .ok (decide (r = .ps)) (f .low (onBothLanes b))
      ∧ writeByte (a + 1) b s = .ok (decide (r = .ps)) (f .high (onBothLanes b)) := by
  have hlow : laneOf .byte (unmapped a) = .low := by rw [laneOf, ha.low_lane]; rfl
  have hhigh : laneOf .byte (unmapped (a + 1)) = .high := by rw [laneOf, ha.high_lane]; rfl
  refine ⟨?_, ?_, ?_⟩
  · simp only [writeWord, writeWordIn, run_bind, run_get, translate_disabled hoff]
    exact storeMapped_register hg ha (.inl rfl) (h .word w)
  · simp only [writeByte, writeByteIn, run_bind, run_get, translate_disabled hoff]
    exact storeMapped_register hg ha (.inl rfl) (hlow ▸ h .low _)
  · simp only [writeByte, writeByteIn, run_bind, run_get, translate_disabled hoff]
    exact storeMapped_register hg ha (.inr rfl) (hhigh ▸ h .high _)

theorem onBothLanes_low (b : Byte) : onBothLanes b &&& (0o377 : Word) = (b.setWidth 16 : Word) &&& 0o377 := by
  revert b; decide

theorem onBothLanes_high (b : Byte) :
    onBothLanes b &&& (0o177400 : Word) = (b.setWidth 16 <<< 8 : Word) &&& 0o177400 := by
  revert b; decide

/-- Masked by part of a lane, only what that lane drives counts. -/
theorem merge_lane {part v v' : Word} (h : v &&& part = v' &&& part) (mask old : Word) :
    merge (part &&& mask) v old = merge (mask &&& part) v' old := by
  rw [merge, merge, ← BitVec.and_assoc, h, BitVec.and_assoc, BitVec.and_comm part mask]

/-- A register that takes the bits of a mask takes those of each lane written. -/
theorem writes_masked (hg : busGrant s = .ok ⟨⟩ g) (hoff : s.mmu.sr0.getLsbD 0 = false) (ha : IsAddressOf g.cfg a r)
    {mask old : Word} {updated : Word → State}
    (h : ∀ lane v, writeIo r lane v g = .ok ⟨⟩ (updated (merge (lane.mask &&& mask) v old))) (w : Word) (b : Byte) :
    writeWord a w s = .ok (decide (r = .ps)) (updated (merge mask w old))
      ∧ writeByte a b s = .ok (decide (r = .ps)) (updated (merge (mask &&& 0o377) (b.setWidth 16) old))
      ∧ writeByte (a + 1) b s
        = .ok (decide (r = .ps)) (updated (merge (mask &&& 0o177400) (b.setWidth 16 <<< 8) old)) := by
  obtain ⟨hword, hlow, hhigh⟩ := writes_register hg hoff ha h w b
  refine ⟨?_, ?_, ?_⟩
  · rw [hword]
    congr 3
    exact BitVec.allOnes_and
  · rw [hlow, Lane.mask, merge_lane (onBothLanes_low b)]
  · rw [hhigh, Lane.mask, merge_lane (onBothLanes_high b)]

/-- A register that takes a value from the low lane alone: a low byte written is that byte on both lanes, a high byte is
ignored. -/
theorem writes_low (hg : busGrant s = .ok ⟨⟩ g) (hoff : s.mmu.sr0.getLsbD 0 = false) (ha : IsAddressOf g.cfg a r)
    {f : Word → State} (h : ∀ lane v, writeIo r lane v g = .ok ⟨⟩ (if lane.hasLow then f v else g)) (w : Word)
    (b : Byte) : writeWord a w s = .ok (decide (r = .ps)) (f w) ∧ writeByte a b s = .ok (decide (r = .ps)) (f (onBothLanes b))
      ∧ writeByte (a + 1) b s = .ok (decide (r = .ps)) g :=
  writes_register hg hoff ha h w b

end Access

/-! The addresses of the registers (spec/10_state.md R43, R49 to R53, R58). -/

theorem isAddressOf_chip {a : Word} {r : IoReg} (heven : a.toNat % 2 = 0) (hhigh : 0o160000 ≤ a.toNat)
    (h : chipReg (a.toNat % 0o20000) = some r) (cfg : Config) : IsAddressOf cfg a r :=
  ⟨heven, hhigh, by rw [registerAt, h]; rfl⟩

/-- The address of the first page descriptor register of a set (R43). -/
def pdrBase : PageSet → Word
  | .kernel => 0o172300
  | .user => 0o177600

theorem isAddressOf_pdr (cfg : Config) (p : PageSet) (n : Fin 8) :
    IsAddressOf cfg (pdrBase p + BitVec.ofNat 16 (2 * n.val)) (.pdr p n) :=
  isAddressOf_chip (by cases p <;> revert n <;> decide) (by cases p <;> revert n <;> decide)
    (by cases p <;> revert n <;> decide) cfg

theorem isAddressOf_par (cfg : Config) (p : PageSet) (n : Fin 8) :
    IsAddressOf cfg (pdrBase p + BitVec.ofNat 16 (2 * n.val) + 0o40) (.par p n) :=
  isAddressOf_chip (by cases p <;> revert n <;> decide) (by cases p <;> revert n <;> decide)
    (by cases p <;> revert n <;> decide) cfg

/-- Outside the two serial-line units the board decodes what it does with the factory settings. -/
theorem boardReg_outside_slus {cfg : Config} {o : Nat} (hbdk : cfg.bdkDisable = false)
    (ho : o < 0o16500 ∨ (0o16550 ≤ o ∧ o < 0o17560)) : boardReg cfg o = boardReg Config.factory o := by
  have hconsole : ¬(0o17560 ≤ o ∧ o < 0o17570) := by omega
  have hsecond : ∀ c : Config, ¬(slu2Base c ≤ o ∧ o < slu2Base c + 0o10) := by
    intro c
    unfold slu2Base
    split <;> omega
  simp only [boardReg, if_neg hconsole, if_neg (hsecond _), hbdk, show Config.factory.bdkDisable = false from rfl]

theorem isAddressOf_board {cfg : Config} {a : Word} {r : IoReg} (hbdk : cfg.bdkDisable = false)
    (heven : a.toNat % 2 = 0) (hhigh : 0o160000 ≤ a.toNat)
    (ho : a.toNat % 0o20000 < 0o16500 ∨ (0o16550 ≤ a.toNat % 0o20000 ∧ a.toNat % 0o20000 < 0o17560))
    (h : registerAt Config.factory (a.toNat % 0o20000) = some r) : IsAddressOf cfg a r :=
  ⟨heven, hhigh, by rw [registerAt, boardReg_outside_slus hbdk ho]; exact h⟩

/-- The ROM window is 173000 to 173776 (spec/60_exceptions.md R775). -/
theorem isAddressOf_rom {cfg : Config} (hbdk : cfg.bdkDisable = false) {k : Nat} (hk : k < 256) :
    IsAddressOf cfg (0o173000 + BitVec.ofNat 16 (2 * k)) (.rom (2 * k)) := by
  have ha : (0o173000 + BitVec.ofNat 16 (2 * k) : Word).toNat = 0o173000 + 2 * k := by
    rw [BitVec.toNat_add, BitVec.toNat_ofNat]
    show (0o173000 + 2 * k % 2 ^ 16) % 2 ^ 16 = 0o173000 + 2 * k
    omega
  have ho : (0o173000 + 2 * k) % 0o20000 = 0o13000 + 2 * k := by omega
  refine isAddressOf_board hbdk (by omega) (by omega) (by omega) ?_
  have hchip : chipReg (0o13000 + 2 * k) = none := by
    unfold chipReg
    repeat rw [if_neg (by omega)]
  have hboard : boardReg Config.factory (0o13000 + 2 * k) = some (.rom (2 * k)) := by
    have hconsole : ¬(0o17560 ≤ 0o13000 + 2 * k) := by omega
    have hsecond : ¬(slu2Base Config.factory ≤ 0o13000 + 2 * k) := by
      show ¬(0o16500 ≤ 0o13000 + 2 * k)
      omega
    have hrom : 0o13000 ≤ 0o13000 + 2 * k ∧ 0o13000 + 2 * k < 0o14000 := by omega
    rw [boardReg, if_neg fun h => hconsole h.1, if_neg fun h => hsecond h.1, if_neg (by decide), if_pos hrom,
      Nat.add_sub_cancel_left]
  rw [ha, ho, registerAt, hchip, hboard]
  rfl

/-! The values the registers give. -/

theorem lksWord_eq (s : State) : lksWord s = if s.board.lcie = true ∨ s.cfg.ltcForce = true then 0o100 else 0 := by
  unfold lksWord
  cases s.board.lcie <;> cases s.cfg.ltcForce <;> decide

theorem pdr_withPar (m : Mmu) (p : PageSet) (n : Fin 8) (w : Word) : (m.withPar p n w).pdr p n = m.pdr p n := by
  cases p <;> rfl

theorem lane_mask_full (lane : Lane) : lane.mask &&& (0o177777 : Word) = lane.mask := by
  cases lane <;> decide

theorem onBothLanes_display (b : Byte) : (onBothLanes b).extractLsb' 0 4 = b.extractLsb' 0 4 := by
  revert b; decide

theorem onBothLanes_enable (b : Byte) : (onBothLanes b).getLsbD 6 = b.getLsbD 6 := by
  revert b; decide

/-- The word of the ROM window (spec/60_exceptions.md R775). -/
theorem romWord_eq (s : State) (k : Nat) : romWord s (2 * k) =
    let page := (if k < 128 then s.board.pcr.extractLsb' 0 6 else s.board.pcr.extractLsb' 8 6).toNat
    let place := page * 256 + 2 * k % 256
    romByte s.cfg.rom (place + 1) ++ romByte s.cfg.rom place := by
  have hpage : (if 2 * k < 0o400 then (s.board.pcr.extractLsb' 0 6).toNat else (s.board.pcr.extractLsb' 8 6).toNat)
      = (if k < 128 then s.board.pcr.extractLsb' 0 6 else s.board.pcr.extractLsb' 8 6).toNat := by
    by_cases hk : k < 128
    · rw [if_pos hk, if_pos (by omega)]
    · rw [if_neg hk, if_neg (by omega)]
  simp only [romWord, romAddr, hpage]
  rfl

/-- A page address register takes the lanes written; the W bit of its pair is cleared (spec/10_state.md R44, R46). -/
theorem writeIo_par (p : PageSet) (n : Fin 8) (lane : Lane) (v : Word) (s : State) :
    writeIo (.par p n) lane v s = .ok ⟨⟩ { s with
      mmu := (s.mmu.withPar p n (merge (lane.mask &&& 0o177777) v (s.mmu.par p n))).withPdr p n
        (s.mmu.pdr p n &&& ~~~0o100) } := by
  rw [lane_mask_full]
  simp only [writeIo, run_bind, run_get, pdr_withPar]
  rfl

/-- The display takes the low four bits of what drives the low lane (spec/10_state.md R61). -/
theorem writeIo_cdr (lane : Lane) (v : Word) (s : State) :
    writeIo .cdr lane v s
      = .ok ⟨⟩ (if lane.hasLow then { s with board := { s.board with display := v.extractLsb' 0 4 } } else s) := by
  simp only [writeIo, run_bind, run_get]
  cases lane.hasLow <;> rfl

/-- LKS takes its enable from the low lane (spec/10_state.md R62). -/
theorem writeIo_lks (lane : Lane) (v : Word) (s : State) :
    writeIo .lks lane v s
      = .ok ⟨⟩ (if lane.hasLow then { s with board := { s.board with lcie := v.getLsbD 6 } } else s) := by
  simp only [writeIo, run_bind, run_get]
  cases lane.hasLow <;> rfl

/-- Settles O14: each register by its address, then by its read and its write cycle. -/
theorem specialRegisters : Obligations.SpecialRegisters := by
  intro s g w b hg hoff merged writable ignores reads mmuIs boardIs
  obtain rfl := (busGrant_ok hg).1
  have hreads : ∀ {a v r}, IsAddressOf s.granted.cfg a r → readIo r s.granted = .ok v s.granted → reads a v :=
    fun ha h => reads_register hg hoff ha h
  have hignores : ∀ {a r}, IsAddressOf s.granted.cfg a r → decide (r = .ps) = false →
      (∀ lane v, writeIo r lane v s.granted = .ok ⟨⟩ s.granted) → ignores a := by
    intro a r ha hr h
    have hw := writes_register hg hoff ha (f := fun _ _ => s.granted) h w b
    rwa [hr] at hw
  have hwritable : ∀ updated {a r mask old isPs}, IsAddressOf s.granted.cfg a r → decide (r = .ps) = isPs →
      (∀ lane v, writeIo r lane v s.granted = .ok ⟨⟩ (updated (merge (lane.mask &&& mask) v old))) →
      writable a mask old isPs updated := by
    rintro updated a r mask old _ ha rfl h
    exact writes_masked hg hoff ha h w b
  have hchip : ∀ {a r}, a.toNat % 2 = 0 → 0o160000 ≤ a.toNat → chipReg (a.toNat % 0o20000) = some r →
      IsAddressOf s.granted.cfg a r := fun heven hhigh h => isAddressOf_chip heven hhigh h _
  have hps := hchip (a := 0o177776) (r := .ps) (by decide) (by decide) (by decide)
  have hsr0 := hchip (a := 0o177572) (r := .sr0) (by decide) (by decide) (by decide)
  have hsr1 := hchip (a := 0o177574) (r := .sr1) (by decide) (by decide) (by decide)
  have hsr2 := hchip (a := 0o177576) (r := .sr2) (by decide) (by decide) (by decide)
  have hsr3 := hchip (a := 0o172516) (r := .sr3) (by decide) (by decide) (by decide)
  refine ⟨hreads hps rfl, hwritable (fun x => { s.granted with ps := x }) hps rfl fun _ _ => rfl, fun p n => ?_,
    hreads hsr0 rfl, hwritable (fun x => mmuIs { s.mmu with sr0 := x }) hsr0 rfl fun _ _ => rfl,
    hreads hsr1 rfl, hignores hsr1 rfl fun _ _ => rfl, hreads hsr2 rfl, hignores hsr2 rfl fun _ _ => rfl,
    hreads hsr3 rfl, hwritable (fun x => mmuIs { s.mmu with sr3 := x }) hsr3 rfl fun _ _ => rfl, fun hbdk => ?_⟩
  · intro base descriptor address
    have hbase : pdrBase p = base := by cases p <;> rfl
    have hd := isAddressOf_pdr s.granted.cfg p n
    have ha := isAddressOf_par s.granted.cfg p n
    rw [hbase] at hd ha
    exact ⟨hreads hd rfl, hreads ha rfl,
      hwritable (fun x => mmuIs (s.mmu.withPdr p n (x &&& ~~~0o100))) hd rfl fun _ _ => rfl,
      hwritable (fun x => mmuIs ((s.mmu.withPar p n x).withPdr p n (s.mmu.pdr p n &&& ~~~0o100))) ha rfl
        fun lane v => writeIo_par p n lane v s.granted⟩
  · have hpcr := isAddressOf_board (a := 0o177520) (r := .pcr) hbdk (by decide) (by decide) (by decide) rfl
    have hrwr := isAddressOf_board (a := 0o177522) (r := .rwr) hbdk (by decide) (by decide) (by decide) rfl
    have hcdr := isAddressOf_board (a := 0o177524) (r := .cdr) hbdk (by decide) (by decide) (by decide) rfl
    have hlks := isAddressOf_board (a := 0o177546) (r := .lks) hbdk (by decide) (by decide) (by decide) rfl
    obtain ⟨hcdrWord, hcdrLow, hcdrHigh⟩ := writes_low hg hoff hcdr (fun lane v => writeIo_cdr lane v _) w b
    obtain ⟨hlksWord, hlksLow, hlksHigh⟩ := writes_low hg hoff hlks (fun lane v => writeIo_lks lane v _) w b
    rw [onBothLanes_display] at hcdrLow
    rw [onBothLanes_enable] at hlksLow
    refine ⟨reads_register hg hoff hpcr rfl,
      hwritable (fun x => boardIs { s.board with pcr := x }) hpcr rfl fun _ _ => rfl,
      hreads hrwr rfl, hwritable (fun x => boardIs { s.board with rwr := x }) hrwr rfl fun lane v => ?_,
      hreads hcdr rfl, hcdrWord, hcdrLow, hcdrHigh, hreads hlks ?_, hlksWord, hlksLow, hlksHigh, fun k hk => ?_⟩
    · rw [lane_mask_full]
      rfl
    · rw [← lksWord_eq s]
      rfl
    · have hrom := isAddressOf_rom (cfg := s.cfg) hbdk hk
      exact ⟨hreads hrom (congrArg (EStateM.Result.ok · s.granted) (romWord_eq s k)), hignores hrom rfl fun _ _ => rfl⟩

end Sys2Proof.Machine

namespace Sys2Proof.Machine

/-! The serial-line units and the inputs of a step (spec/10_state.md R63 to R67, spec/60_exceptions.md R744 to R755). -/

/-! The registers of a serial-line unit. -/

/-- The jumper that removes the registers of a unit (R11). -/
def sluDisabled (cfg : Config) : Unit2 → Bool
  | .console => cfg.dl1Disable
  | .second => cfg.dl2Disable

/-- The address of the receiver status register of a unit (R58). -/
def sluAddress (cfg : Config) : Unit2 → Word
  | .console => 0o177560
  | .second => if cfg.dl2Alt then 0o176540 else 0o176500

/-- That address as an offset in the I/O page. -/
def sluOffset (cfg : Config) : Unit2 → Nat
  | .console => 0o17560
  | .second => slu2Base cfg

theorem slu2Base_cases (cfg : Config) : slu2Base cfg = 0o16540 ∨ slu2Base cfg = 0o16500 := by
  unfold slu2Base
  split <;> simp

theorem sluOffset_cases (cfg : Config) (u : Unit2) :
    sluOffset cfg u = 0o17560 ∨ sluOffset cfg u = 0o16540 ∨ sluOffset cfg u = 0o16500 := by
  cases u with
  | console => exact .inl rfl
  | second => exact .inr (slu2Base_cases cfg)

theorem sluAddress_toNat (cfg : Config) (u : Unit2) : (sluAddress cfg u).toNat = 0o160000 + sluOffset cfg u := by
  cases u with
  | console => rfl
  | second =>
    simp only [sluAddress, sluOffset, slu2Base]
    cases cfg.dl2Alt <;> rfl

theorem chipReg_slu (cfg : Config) (u : Unit2) {k : Nat} (hk : k < 8) : chipReg (sluOffset cfg u + k) = none := by
  have := sluOffset_cases cfg u
  unfold chipReg
  repeat rw [if_neg (by omega)]

theorem boardReg_slu {cfg : Config} {u : Unit2} (h : sluDisabled cfg u = false) {k : Nat} (hk : k < 8) :
    boardReg cfg (sluOffset cfg u + k) = sluReg u k := by
  cases u with
  | console =>
    have hdl1 : ¬cfg.dl1Disable = true := Bool.not_eq_true _ |>.mpr h
    simp only [sluOffset]
    rw [boardReg, if_pos (by omega), if_neg hdl1, Nat.add_sub_cancel_left]
  | second =>
    have hdl2 : ¬cfg.dl2Disable = true := Bool.not_eq_true _ |>.mpr h
    have hbase := slu2Base_cases cfg
    simp only [sluOffset]
    rw [boardReg, if_neg (by omega), if_pos (by omega), if_neg hdl2, Nat.add_sub_cancel_left]

/-- The registers of a unit stand two bytes apart (R58). -/
theorem isAddressOf_slu {cfg : Config} {u : Unit2} (h : sluDisabled cfg u = false) {k : Nat} {r : IoReg} (hk : k < 8)
    (heven : k % 2 = 0) (hr : sluReg u k = some r) : IsAddressOf cfg (sluAddress cfg u + BitVec.ofNat 16 k) r := by
  have hcases := sluOffset_cases cfg u
  have ha : (sluAddress cfg u + BitVec.ofNat 16 k).toNat = 0o160000 + sluOffset cfg u + k := by
    rw [BitVec.toNat_add, sluAddress_toNat, BitVec.toNat_ofNat]
    omega
  have ho : (0o160000 + sluOffset cfg u + k) % 0o20000 = sluOffset cfg u + k := by omega
  refine ⟨by omega, by omega, ?_⟩
  rw [ha, ho, registerAt, chipReg_slu cfg u hk, boardReg_slu h hk, hr]
  rfl

theorem isAddressOf_slu_registers {cfg : Config} {u : Unit2} (h : sluDisabled cfg u = false) :
    IsAddressOf cfg (sluAddress cfg u) (.rcsr u) ∧ IsAddressOf cfg (sluAddress cfg u + 2) (.rbuf u)
      ∧ IsAddressOf cfg (sluAddress cfg u + 4) (.tcsr u) ∧ IsAddressOf cfg (sluAddress cfg u + 6) (.tbuf u) :=
  ⟨by simpa using isAddressOf_slu h (k := 0) (r := .rcsr u) (by decide) rfl rfl,
    isAddressOf_slu h (k := 2) (by decide) rfl rfl, isAddressOf_slu h (k := 4) (by decide) rfl rfl,
    isAddressOf_slu h (k := 6) (by decide) rfl rfl⟩

@[simp] theorem slu_withSlu_same (s : State) (u : Unit2) (x : Slu) : (s.withSlu u x).slu u = x := by
  cases u <;> rfl

theorem slu_granted (s : State) (u : Unit2) : s.granted.slu u = s.slu u := by
  cases u <;> rfl

theorem rcsr_eq (x : Slu) : x.rcsr = (if x.rxDone then 0o200 else 0) ||| (if x.rxIE then 0o100 else 0) := by
  unfold Slu.rcsr
  cases x.rxDone <;> cases x.rxIE <;> decide

theorem tcsr_eq (x : Slu) : x.tcsr = (if x.txRdy then 0o200 else 0) ||| (if x.txIE then 0o100 else 0) := by
  unfold Slu.tcsr
  cases x.txRdy <;> cases x.txIE <;> decide

theorem writeIo_rcsr (u : Unit2) (lane : Lane) (v : Word) (s : State) :
    writeIo (.rcsr u) lane v s = .ok ⟨⟩ (if lane.hasLow then s.withSlu u ((s.slu u).writeRcsr v) else s) := by
  simp only [writeIo, run_bind, run_get]
  cases lane.hasLow <;> rfl

theorem writeIo_tcsr (u : Unit2) (lane : Lane) (v : Word) (s : State) :
    writeIo (.tcsr u) lane v s = .ok ⟨⟩ (if lane.hasLow then s.withSlu u ((s.slu u).writeTcsr u v) else s) := by
  simp only [writeIo, run_bind, run_get]
  cases lane.hasLow <;> rfl

/-- Writing TBUF takes the next free value for the time of the transmission (log 39). -/
theorem writeIo_tbuf (u : Unit2) (lane : Lane) (v : Word) (s : State) :
    writeIo (.tbuf u) lane v s = .ok ⟨⟩ (if lane.hasLow then
      { s.withSlu u ((s.slu u).writeTbuf (Config.txDelay s.free) (lowByte v)) with free := s.free + 1 } else s) := by
  simp only [writeIo, run_bind, run_get]
  cases lane.hasLow
  · rfl
  · cases u <;> rfl

/-! The interrupt channels (spec/60_exceptions.md R750). -/

/-- The channel of an enable that is written with the flag as it is. -/
theorem channel_enable (flag was now held : Bool) :
    channel (flag && was) (flag && now) held = (flag && now && (held || !was)) := by
  cases flag <;> cases was <;> cases now <;> cases held <;> rfl

/-- The channel of a flag and an enable that stay. -/
theorem channel_same (now held : Bool) : channel now now held = (now && held) := by
  cases now <;> cases held <;> rfl

/-- The channel of a flag that is set with the enable as it is. -/
theorem channel_flag (flag enable held : Bool) :
    channel (flag && enable) (true && enable) held = (enable && (held || !flag)) := by
  cases flag <;> cases enable <;> cases held <;> rfl

theorem writeRcsr_rxReq (x : Slu) (v : Word) :
    (x.writeRcsr v).rxReq = (x.rxDone && v.getLsbD 6 && (x.rxReq || !x.rxIE)) := channel_enable _ _ _ _

theorem writeTcsr_txReq (x : Slu) (u : Unit2) (v : Word) :
    (x.writeTcsr u v).txReq = (x.txRdy && v.getLsbD 6 && (x.txReq || !x.txIE)) := channel_enable _ _ _ _

theorem receive_rxReq (x : Slu) (c : Byte) (frm par ovr : Bool) :
    (x.receive c frm par ovr).rxReq = (x.rxIE && (x.rxReq || !x.rxDone)) := channel_flag _ _ _

/-! The transmitters (spec/60_exceptions.md R754). -/

theorem transmit_ready {x : Slu} (h : x.txRdy = true) : x.transmit = x := if_pos h

theorem transmit_waiting {x : Slu} (h : x.txRdy = false) (ht : 0 < x.txTimer) :
    x.transmit = { x with txTimer := x.txTimer - 1 } := by
  obtain ⟨n, hn⟩ := Nat.exists_eq_succ_of_ne_zero ht.ne'
  simp [Slu.transmit, h, hn]

theorem transmit_sent {x : Slu} (h : x.txRdy = false) (ht : x.txTimer = 0) :
    x.transmit = x.settle { x with txRdy := true, sent := x.sent ++ [x.tbuf] } := by
  simp [Slu.transmit, h, ht]

/-- A transmitter that moves on leaves the receiver, but for a request that has no flag and enable. -/
theorem transmit_receiver (x : Slu) : x.transmit.rxDone = x.rxDone ∧ x.transmit.rxIE = x.rxIE
    ∧ (x.transmit.rxReq = x.rxReq ∨ x.transmit.rxReq = (x.rxDone && x.rxIE && x.rxReq)) := by
  unfold Slu.transmit
  split
  · exact ⟨rfl, rfl, .inl rfl⟩
  · cases x.txTimer with
    | zero => exact ⟨rfl, rfl, .inr (channel_same _ _)⟩
    | succ n => exact ⟨rfl, rfl, .inl rfl⟩

theorem transmitted_slu {s : State} (h : s.run ≠ .poweredDown) (u : Unit2) :
    s.transmitted.slu u = (s.slu u).transmit := by
  rw [State.transmitted, if_neg h]
  cases u <;> rfl

/-- What the transmitters leave of a receiver: its flag and enable, and its request where these are both set. -/
theorem transmitted_receiver (s : State) (u : Unit2) :
    (s.transmitted.slu u).rxDone = (s.slu u).rxDone ∧ (s.transmitted.slu u).rxIE = (s.slu u).rxIE
      ∧ ((s.transmitted.slu u).rxReq = (s.slu u).rxReq
        ∨ (s.transmitted.slu u).rxReq = ((s.slu u).rxDone && (s.slu u).rxIE && (s.slu u).rxReq)) := by
  by_cases h : s.run = .poweredDown
  · rw [transmitted_poweredDown s h]
    exact ⟨rfl, rfl, .inl rfl⟩
  · rw [transmitted_slu h]
    exact transmit_receiver _

/-! The start of a step. -/

/-- The state in which the input of a step is taken (log 43). -/
def State.ticked (s : State) : State :=
  { s.transmitted with free := s.free + 1, inputs := s.inputs.tail, bus := { s.bus with left := none } }

theorem tick_eq (s : State) : tick s = applyInput (s.inputs.headD .quiet) s.ticked := rfl

theorem tick_of_inputs {s : State} {i : Input} {rest : List Input} (h : s.inputs = i :: rest) :
    tick s = applyInput i s.ticked := by
  rw [tick_eq, h]
  rfl

theorem ticked_slu (s : State) (u : Unit2) : s.ticked.slu u = s.transmitted.slu u := by
  cases u <;> rfl

theorem ticked_frame (s : State) : s.ticked.cfg = s.cfg ∧ s.ticked.board = s.board ∧ s.ticked.lines = s.lines := by
  unfold State.ticked
  rw [transmitted_frame]
  exact ⟨rfl, rfl, rfl⟩

theorem applyInput_receive_slu (u : Unit2) (c : Byte) (frm par ovr : Bool) (s : State) :
    (applyInput (.receive u c frm par ovr) s).slu u = (s.slu u).receive c frm par ovr := by
  unfold applyInput
  dsimp only
  split
  · cases u <;> rfl
  · exact slu_withSlu_same s u _

theorem applyInput_receive_lines (u : Unit2) (c : Byte) (frm par ovr : Bool) (s : State) :
    (applyInput (.receive u c frm par ovr) s).lines =
      { s.lines with breakHalt := s.lines.breakHalt || (decide (u = .console) && frm && s.cfg.breakHalt) } := by
  have hlines : ∀ x, (s.withSlu u x).lines = s.lines := by cases u <;> exact fun _ => rfl
  unfold applyInput
  dsimp only
  split
  · rename_i h
    simp [hlines, h]
  · rename_i h
    simp only [Bool.not_eq_true] at h
    simp [hlines, h]

/-- The character that arrives on a unit, and the halt a break asks for (spec/60_exceptions.md R753, R755). -/
theorem tick_receive {s : State} {u : Unit2} {c : Byte} {frm par ovr : Bool} {rest : List Input}
    (h : s.inputs = .receive u c frm par ovr :: rest) :
    (tick s).slu u = (s.transmitted.slu u).receive c frm par ovr
      ∧ (tick s).lines = { s.lines with
        breakHalt := s.lines.breakHalt || (decide (u = .console) && frm && s.cfg.breakHalt) } := by
  obtain ⟨hcfg, -, hlines⟩ := ticked_frame s
  rw [tick_of_inputs h, applyInput_receive_slu, applyInput_receive_lines, ticked_slu, hlines, hcfg]
  exact ⟨rfl, rfl⟩

/-- The leading edge of BEVNT sets EVENT FLG where LKS<6> is set (spec/60_exceptions.md R744). -/
theorem tick_clockEdge {s : State} {rest : List Input} (h : s.inputs = .clockEdge :: rest) :
    (tick s).board = { s.board with eventFlg := s.board.eventFlg || s.board.lcie || s.cfg.ltcForce } := by
  obtain ⟨hcfg, hboard, -⟩ := ticked_frame s
  rw [tick_of_inputs h, applyInput, hboard, hcfg]
  split
  · rename_i hset
    rw [Bool.or_assoc, hset, Bool.or_true]
  · rename_i hclear
    rw [Bool.or_assoc, Bool.not_eq_true _ |>.mp hclear, Bool.or_false, hboard]

/-! A unit as a program reaches it. -/

section Registers

variable {s g : State} {unit : Unit2} (hg : busGrant s = .ok ⟨⟩ g) (hoff : s.mmu.sr0.getLsbD 0 = false)
  (hon : sluDisabled s.cfg unit = false)

include hg hoff hon

theorem slu_reads :
    let base := sluAddress s.cfg unit
    readWord (base + 2) s = .ok (s.slu unit).rbufWord (g.withSlu unit (s.slu unit).readRbuf)
      ∧ readWord base s = .ok (s.slu unit).rcsr g ∧ readWord (base + 4) s = .ok (s.slu unit).tcsr g
      ∧ readWord (base + 6) s = .ok 0 g := by
  obtain rfl := (busGrant_ok hg).1
  obtain ⟨hrcsr, hrbuf, htcsr, htbuf⟩ := isAddressOf_slu_registers (cfg := s.granted.cfg) hon
  rw [← slu_granted]
  exact ⟨(reads_register hg hoff hrbuf rfl).1, (reads_register hg hoff hrcsr rfl).1,
    (reads_register hg hoff htcsr rfl).1, (reads_register hg hoff htbuf rfl).1⟩

theorem slu_writes (w : Word) (b : Byte) :
    let base := sluAddress s.cfg unit
    let x := s.slu unit
    writeWord (base + 2) w s = .ok false g
      ∧ writeWord base w s = .ok false (g.withSlu unit (x.writeRcsr w))
      ∧ writeWord (base + 4) w s = .ok false (g.withSlu unit (x.writeTcsr unit w))
      ∧ writeWord (base + 6) w s = .ok false
        { g.withSlu unit (x.writeTbuf (Config.txDelay g.free) (lowByte w)) with free := g.free + 1 }
      ∧ ∀ a ∈ [base, base + 4, base + 6],
        writeByte a b s = writeWord a (b ++ b) s ∧ writeByte (a + 1) b s = .ok false g := by
  obtain rfl := (busGrant_ok hg).1
  obtain ⟨hrcsr, hrbuf, htcsr, htbuf⟩ := isAddressOf_slu_registers (cfg := s.granted.cfg) hon
  have hlow : ∀ {a : Word} {r : IoReg} {f : Word → State}, IsAddressOf s.granted.cfg a r → decide (r = .ps) = false →
      (∀ lane v, writeIo r lane v s.granted = .ok ⟨⟩ (if lane.hasLow then f v else s.granted)) →
      writeWord a w s = .ok false (f w)
        ∧ writeByte a b s = writeWord a (b ++ b) s ∧ writeByte (a + 1) b s = .ok false s.granted := by
    intro a r f ha hr h
    obtain ⟨hword, hlow, hhigh⟩ := writes_low hg hoff ha h w b
    obtain ⟨hboth, -, -⟩ := writes_low hg hoff ha h (b ++ b) b
    rw [hr] at hword hlow hhigh hboth
    exact ⟨hword, hlow.trans hboth.symm, hhigh⟩
  obtain ⟨hwr, hbr⟩ := hlow hrcsr rfl fun lane v => writeIo_rcsr unit lane v _
  obtain ⟨hwt, hbt⟩ := hlow htcsr rfl fun lane v => writeIo_tcsr unit lane v _
  obtain ⟨hwb, hbb⟩ := hlow htbuf rfl fun lane v => writeIo_tbuf unit lane v _
  rw [slu_granted] at hwr hwt hwb
  have hignored := writes_register hg hoff hrbuf (f := fun _ _ => s.granted) (fun _ _ => rfl) w b
  refine ⟨hignored.1, hwr, hwt, hwb, fun a ha => ?_⟩
  simp only [List.mem_cons, List.not_mem_nil, or_false] at ha
  rcases ha with rfl | rfl | rfl
  · exact hbr
  · exact hbt
  · exact hbb

end Registers

/-- Settles O59: the registers of a unit by their cycles, the inputs of a step by `tick`, ODT by its own operations. -/
theorem consoleAndOdt : Obligations.ConsoleAndOdt := by
  refine ⟨fun s g unit w b hg hoff hon => ?_, fun s unit c frm par ovr rest h => ?_, fun s hrun hquiet unit => ?_,
    fun s rest => ⟨tick_clockEdge, fun h => ?_, fun v h => ?_⟩,
    fun s w => ⟨⟨_, rfl, rfl, ?_, ?_⟩, _, rfl, rfl, rfl, rfl, rfl, rfl, rfl, rfl, rfl, rfl⟩⟩
  · intro base x bit
    have hon' : sluDisabled s.cfg unit = false := by cases unit <;> exact hon
    have hbase : sluAddress s.cfg unit = base := by cases unit <;> rfl
    obtain ⟨hrbuf, hrcsr, htcsr, htbuf⟩ := slu_reads hg hoff hon'
    obtain ⟨hwrbuf, hwrcsr, hwtcsr, hwtbuf, hbytes⟩ := slu_writes hg hoff hon' w b
    rw [hbase] at hrbuf hrcsr htcsr htbuf hwrbuf hwrcsr hwtcsr hwtbuf hbytes
    rw [rcsr_eq] at hrcsr
    rw [tcsr_eq] at htcsr
    refine ⟨⟨_, hrbuf, ?_⟩, hrcsr, htcsr, htbuf, hwrbuf, ⟨_, hwrcsr, ?_⟩, ⟨_, hwtcsr, ?_⟩, ⟨_, hwtbuf, ?_⟩, hbytes⟩
    · rw [slu_withSlu_same]
      exact ⟨rfl, rfl, rfl, rfl, rfl⟩
    · rw [slu_withSlu_same]
      exact ⟨rfl, rfl, rfl, rfl, rfl, writeRcsr_rxReq _ w⟩
    · rw [slu_withSlu_same]
      exact ⟨rfl, rfl, rfl, rfl, rfl, rfl, writeTcsr_txReq _ unit w⟩
    · cases unit <;> exact ⟨rfl, rfl, rfl, rfl, rfl, rfl⟩
  · obtain ⟨hslu, hlines⟩ := tick_receive h
    obtain ⟨hdone, hie, hreq⟩ := transmitted_receiver s unit
    dsimp only
    rw [hslu, receive_rxReq, hie, hdone]
    refine ⟨rfl, rfl, rfl, by rw [← hdone]; rfl, rfl, ?_, hlines⟩
    rcases hreq with hreq | hreq
    · rw [hreq]
    · rw [hreq]
      cases (s.slu unit).rxDone <;> cases (s.slu unit).rxIE <;> cases (s.slu unit).rxReq <;> rfl
  · have hslu : (tick s).slu unit = (s.slu unit).transmit := by
      rw [tick_eq, hquiet, ← transmitted_slu hrun]
      exact ticked_slu s unit
    dsimp only
    rw [hslu]
    refine ⟨transmit_ready, transmit_waiting, fun hrdy htimer => ?_⟩
    rw [transmit_sent hrdy htimer]
    refine ⟨rfl, rfl, ?_, rfl, rfl⟩
    show channel _ (true && _) _ = _
    rw [channel_flag, hrdy, Bool.not_false, Bool.or_true, Bool.and_true]
  · rw [tick_of_inputs h, applyInput, (ticked_frame s).2.2]
  · rw [tick_of_inputs h, applyInput, (ticked_frame s).2.2]
  · exact getLsbD_merge psExplicit w s.ps 4
  · exact merge_and_mask psExplicit w s.ps

end Sys2Proof.Machine

namespace Sys2Proof.Machine

/-! Words and bytes of memory that answers, as the processor and the DMA masters reach them (spec/20_memory.md R100 to R113,
R150). -/

/-! The bytes a write of a lane leaves. -/

theorem highByte_wordOf (hi lo : Byte) : (wordOf hi lo).extractLsb' 8 8 = hi := BitVec.extractLsb'_append_eq_left

theorem wordOf_bytes (w : Word) : wordOf (w.extractLsb' 8 8) (w.extractLsb' 0 8) = w := by
  rw [wordOf, BitVec.extractLsb'_append_extractLsb'_eq_extractLsb' (by omega)]
  exact BitVec.extractLsb'_eq_self

namespace Memory

theorem read_writeLane_low {m : Memory} (hm : m.wf = true) (a : Nat) (v : Word) :
    (m.writeLane a .word v).read a = v.extractLsb' 0 8 := by
  rw [writeLane, read_write_other _ _ _ (by omega)]
  exact read_write_same a (lowByte v) hm

theorem read_writeLane_high {m : Memory} (hm : m.wf = true) (a : Nat) (v : Word) :
    (m.writeLane a .word v).read (a + 1) = v.extractLsb' 8 8 :=
  read_write_same (a + 1) (highByte v) (wf_write a (lowByte v) hm)

theorem readWord_writeLane_same {m : Memory} (hm : m.wf = true) (a : Nat) (v : Word) :
    (m.writeLane a .word v).readWord a = v := by
  rw [readWord, read_writeLane_low hm, read_writeLane_high hm, wordOf_bytes]

/-- Two different words at even addresses have no byte in common. -/
theorem readWord_writeLane_other (m : Memory) {a x : Nat} (ha : a % 2 = 0) (hx : x % 2 = 0) (h : x ≠ a) (lane : Lane)
    (v : Word) : (m.writeLane a lane v).readWord x = m.readWord x := by
  rw [readWord, readWord, read_writeLane_other _ _ _ _ (by omega) (by omega),
    read_writeLane_other _ _ _ _ (by omega) (by omega)]

/-- A byte written is read back, from the lane its address selects (spec/20_memory.md R106). -/
theorem read_writeLane_byte_same {m : Memory} (hm : m.wf = true) (cfg : Config) (pa : PAddr) (v : Word) :
    (m.writeLane (evenAddr (memoryAddr cfg pa)) (laneOf .byte pa) v).read (memoryAddr cfg pa)
      = if pa.getLsbD 0 then v.extractLsb' 8 8 else v.extractLsb' 0 8 := by
  have haddr := memoryAddr_eq cfg pa
  rw [laneOf]
  split at haddr
  · rename_i hodd
    rw [if_pos hodd, if_pos hodd, writeLane, ← haddr]
    exact read_write_same _ (highByte v) hm
  · rename_i heven
    rw [if_neg heven, if_neg heven, writeLane, ← Nat.add_zero (evenAddr _), ← haddr]
    exact read_write_same _ (lowByte v) hm

end Memory

/-- The byte of a word that an address selects is the byte of memory at that address (spec/20_memory.md R105). -/
theorem selectByte_readWord (m : Memory) (cfg : Config) (pa : PAddr) :
    selectByte pa (m.readWord (evenAddr (memoryAddr cfg pa))) = m.read (memoryAddr cfg pa) := by
  have haddr := memoryAddr_eq cfg pa
  rw [selectByte]
  split at haddr
  · rename_i hodd
    rw [if_pos hodd]
    exact (highByte_wordOf _ _).trans (congrArg m.read haddr.symm)
  · rename_i heven
    rw [if_neg heven]
    exact (lowByte_wordOf _ _).trans (congrArg m.read haddr.symm)

/-! A cycle of the processor at memory that answers. -/

theorem plainMemory_iff {s : State} {pa : PAddr} : plainMemory s pa = true ↔
    isIoPage pa = false ∧ populated s.cfg (wordPlace s pa) = true ∧ s.cfg.parityBad.contains (wordPlace s pa) = false := by
  simp only [plainMemory, wordPlace, Bool.and_eq_true, Bool.not_eq_true', and_assoc]

theorem readCycle_plain {s : State} {pa : PAddr} (h : plainMemory s pa = true) :
    readCycle pa s = .ok (s.mem.readWord (wordPlace s pa)) s := by
  obtain ⟨hio, hpop, hparity⟩ := plainMemory_iff.mp h
  rw [wordPlace] at hpop hparity
  simp only [readCycle, run_bind, run_get, hio, hpop, hparity, Bool.false_eq_true, if_false, if_true, run_pure, wordPlace]

/-- The state a write of a size through a checked reference leaves where memory answers: the lane written and the W bit
(spec/20_memory.md R106, R131). -/
def State.stored (s : State) (m : Mapped) (size : Size) (v : Word) : State :=
  { s with mem := s.mem.writeLane (wordPlace s m.pa) (laneOf size m.pa) v, mmu := s.mmu.marked m.page }

theorem writeBack_plain {s : State} {m : Mapped} (h : plainMemory s m.pa = true) (size : Size) (v : Word) :
    writeBack m size v s = .ok false (s.stored m size v) := by
  obtain ⟨hio, hpop, -⟩ := plainMemory_iff.mp h
  rw [wordPlace] at hpop
  simp only [writeBack, run_bind, run_get, busAnswers, hio, hpop, Bool.false_eq_true, if_false, if_true, markWritten_run,
    writeCycle, run_set, run_pure, isPs, Bool.false_and]
  rfl

section Plain

variable {s g : State} {mode : Mode} {va : Word} {m : Mapped}

theorem plainMemory_granted {pa : PAddr} (hg : busGrant s = .ok ⟨⟩ g) (h : plainMemory s pa = true) :
    plainMemory g pa = true := by
  obtain rfl := (busGrant_ok hg).1
  exact h

theorem wordPlace_granted (hg : busGrant s = .ok ⟨⟩ g) (pa : PAddr) : wordPlace g pa = wordPlace s pa := by
  obtain rfl := (busGrant_ok hg).1
  rfl

theorem busRead_plain {pa : PAddr} (hg : busGrant s = .ok ⟨⟩ g) (h : plainMemory s pa = true) :
    busRead pa s = .ok (g.mem.readWord (wordPlace s pa)) g := by
  rw [busRead, bind_of_ok hg, readCycle_plain (plainMemory_granted hg h), wordPlace_granted hg]

/-- A word reference to memory reads the word its address lies in, after the turn `g` of the DMA masters. -/
theorem readWordIn_plain (hg : busGrant s = .ok ⟨⟩ g) (hm : translate mode va false s = .ok m s)
    (h : plainMemory s m.pa = true) : readWordIn mode va s = .ok (g.mem.readWord (wordPlace s m.pa)) g := by
  rw [readWordIn, bind_of_ok hm, busRead_plain hg h]

theorem readByteIn_plain (hg : busGrant s = .ok ⟨⟩ g) (hm : translate mode va false s = .ok m s)
    (h : plainMemory s m.pa = true) : readByteIn mode va s = .ok (g.mem.read (memoryAddr s.cfg m.pa)) g := by
  rw [readByteIn, bind_of_ok hm, bind_of_ok (busRead_plain hg h), run_pure, wordPlace, selectByte_readWord]

/-- A word reference to memory writes both bytes, after the turn `g` of the DMA masters. -/
theorem writeWordIn_plain (hg : busGrant s = .ok ⟨⟩ g) (hm : translate mode va true s = .ok m s)
    (h : plainMemory s m.pa = true) (v : Word) : writeWordIn mode va v s = .ok false (g.stored m .word v) := by
  rw [writeWordIn, bind_of_ok hm, storeMapped, bind_of_ok hg, writeBack_plain (plainMemory_granted hg h)]

theorem writeByteIn_plain (hg : busGrant s = .ok ⟨⟩ g) (hm : translate mode va true s = .ok m s)
    (h : plainMemory s m.pa = true) (b : Byte) :
    writeByteIn mode va b s = .ok false (g.stored m .byte (onBothLanes b)) := by
  rw [writeByteIn, bind_of_ok hm, storeMapped, bind_of_ok hg, writeBack_plain (plainMemory_granted hg h)]

end Plain

/-! The two addresses of a word (spec/20_memory.md R108). -/

theorem pageOf_congr {va va' : Word} (h : va.toNat / 2 = va'.toNat / 2) : pageOf va = pageOf va' :=
  pageOf_unique (by rw [pageOf_val]; omega)

theorem pageFlags_congr {va va' : Word} (h : va.toNat / 2 = va'.toNat / 2) (pdr : Word) (write : Bool) :
    pageFlags pdr va write = pageFlags pdr va' write := by
  have hblock : blockOf va = blockOf va' := BitVec.eq_of_toNat_eq (by rw [blockOf_toNat, blockOf_toNat]; omega)
  rw [pageFlags, pageFlags, outsideLength, outsideLength, hblock]

theorem sr0Fields_congr {va va' : Word} (h : va.toNat / 2 = va'.toNat / 2) (mode : Mode) :
    sr0Fields mode va = sr0Fields mode va' := by
  have hpage : va.extractLsb' 13 3 = va'.extractLsb' 13 3 := BitVec.eq_of_toNat_eq (by
    simp only [BitVec.extractLsb'_toNat, Nat.shiftRight_eq_div_pow]; omega)
  rw [sr0Fields, sr0Fields, hpage]

theorem relocate_congr {va va' : Word} (h : va.toNat / 2 = va'.toNat / 2) (m : Mmu) (p : PageSet) :
    (relocate m p va).toNat / 2 = (relocate m p va').toNat / 2 := by
  rw [relocate_toNat, relocate_toNat, pageOf_congr h]
  dsimp only
  split_ifs <;> omega

theorem unmapped_congr {va va' : Word} (h : va.toNat / 2 = va'.toNat / 2) :
    (unmapped va).toNat / 2 = (unmapped va').toNat / 2 := by
  rw [unmapped_toNat, unmapped_toNat]
  split_ifs <;> omega

/-- Two checked references to one word of the bus, through the same page register. -/
def Mapped.SameWord (m m' : Mapped) : Prop := m.page = m'.page ∧ m.pa.toNat / 2 = m'.pa.toNat / 2

/-- The state a reference leaves that the memory management unit refuses (spec/20_memory.md R127). -/
def State.refused (s : State) (flags : Word) (mode : Mode) (va : Word) : State :=
  { s with mmu := { s.mmu with sr0 := sr0AfterAbort s.mmu.sr0 flags mode va } }

theorem abortMmu_run {α : Type} (flags : Word) (mode : Mode) (va : Word) (s : State) :
    (abortMmu flags mode va : M α) s = .error (.abort .mmu) (s.refused flags mode va) := rfl

theorem refused_congr {va va' : Word} (h : va.toNat / 2 = va'.toNat / 2) (s : State) (flags : Word) (mode : Mode) :
    s.refused flags mode va = s.refused flags mode va' := by
  have hsr0 : sr0AfterAbort s.mmu.sr0 flags mode va = sr0AfterAbort s.mmu.sr0 flags mode va' := by
    by_cases hfrozen : s.mmu.sr0 &&& 0o160000 = 0
    · rw [sr0AfterAbort_unfrozen hfrozen, sr0AfterAbort_unfrozen hfrozen, sr0Fields_congr h]
    · rw [sr0AfterAbort_frozen hfrozen, sr0AfterAbort_frozen hfrozen]
  rw [State.refused, State.refused, hsr0]

/-- The check of a reference goes by the word, not by the byte: both are refused with the same end, or both are made. -/
theorem translate_sameWord {va va' : Word} (h : va.toNat / 2 = va'.toNat / 2) (mode : Mode) (write : Bool) (s : State) :
    (∃ e t, translate mode va write s = .error e t ∧ translate mode va' write s = .error e t)
      ∨ ∃ m m', translate mode va write s = .ok m s ∧ translate mode va' write s = .ok m' s ∧ m.SameWord m' := by
  simp only [translate, run_bind, run_get]
  by_cases hon : s.relocating = true
  · simp only [hon, if_true]
    cases pageSetOf mode with
    | none => exact .inl ⟨_, _, abortMmu_run _ mode va s, by rw [refused_congr h]; rfl⟩
    | some p =>
      simp only [pageOf_congr h, pageFlags_congr h]
      by_cases hflags : pageFlags (s.mmu.pdr p (pageOf va')) va' write = 0
      · simp only [hflags, if_true]
        exact .inr ⟨_, _, rfl, rfl, rfl, relocate_congr h s.mmu p⟩
      · simp only [hflags, if_false, abortMmu_run]
        exact .inl ⟨_, _, rfl, by rw [refused_congr h]⟩
  · simp only [hon]
    exact .inr ⟨_, _, rfl, rfl, rfl, unmapped_congr h⟩

section SameWord

variable {pa pa' : PAddr} (h : pa.toNat / 2 = pa'.toNat / 2)

include h

theorem isIoPage_congr : isIoPage pa = isIoPage pa' := by
  simp only [isIoPage, decide_eq_decide]
  omega

theorem ioDecode_congr (cfg : Config) : ioDecode cfg pa = ioDecode cfg pa' := by
  have hplace : evenAddr (pa.toNat % 0o20000) = evenAddr (pa'.toNat % 0o20000) := by
    simp only [evenAddr]
    omega
  rw [ioDecode_eq, ioDecode_eq, hplace]

theorem evenAddr_memoryAddr_congr (cfg : Config) : evenAddr (memoryAddr cfg pa) = evenAddr (memoryAddr cfg pa') := by
  simp only [evenAddr, memoryAddr]
  cases cfg.busWidth <;> dsimp only <;> omega

theorem busAnswers_congr (cfg : Config) : busAnswers cfg pa = busAnswers cfg pa' := by
  rw [busAnswers, busAnswers, isIoPage_congr h, ioDecode_congr h, evenAddr_memoryAddr_congr h]

theorem isPs_congr (cfg : Config) : isPs cfg pa = isPs cfg pa' := by
  rw [isPs, isPs, isIoPage_congr h, ioDecode_congr h]

theorem readCycle_congr : readCycle pa = readCycle pa' := by
  simp only [readCycle, isIoPage_congr h, ioDecode_congr h, evenAddr_memoryAddr_congr h]

theorem writeCycle_congr (lane : Lane) (v : Word) : writeCycle pa lane v = writeCycle pa' lane v := by
  simp only [writeCycle, isIoPage_congr h, ioDecode_congr h, evenAddr_memoryAddr_congr h]

end SameWord

theorem storeMapped_sameWord {m m' : Mapped} (h : m.SameWord m') (v : Word) :
    storeMapped m .word v = storeMapped m' .word v := by
  obtain ⟨hpage, hpa⟩ := h
  simp only [storeMapped, writeBack, busAnswers_congr hpa, isPs_congr hpa, laneOf, hpage, writeCycle_congr hpa]

/-- A word read goes by the word its address lies in. -/
theorem readWord_sameWord {va va' : Word} (h : va.toNat / 2 = va'.toNat / 2) (s : State) : readWord va s = readWord va' s := by
  show readWordIn s.mode va s = readWordIn s.mode va' s
  rcases translate_sameWord h s.mode false s with ⟨e, t, hv, hv'⟩ | ⟨m, m', hv, hv', -, hpa⟩
  · rw [readWordIn, readWordIn, bind_of_error hv, bind_of_error hv']
  · rw [readWordIn, readWordIn, bind_of_ok hv, bind_of_ok hv', busRead, busRead, readCycle_congr hpa]

theorem writeWord_sameWord {va va' : Word} (h : va.toNat / 2 = va'.toNat / 2) (v : Word) (s : State) :
    writeWord va v s = writeWord va' v s := by
  show writeWordIn s.mode va v s = writeWordIn s.mode va' v s
  rcases translate_sameWord h s.mode true s with ⟨e, t, hv, hv'⟩ | ⟨m, m', hv, hv', hm⟩
  · rw [writeWordIn, writeWordIn, bind_of_error hv, bind_of_error hv']
  · rw [writeWordIn, writeWordIn, bind_of_ok hv, bind_of_ok hv', storeMapped_sameWord hm]

/-- Settles O11: a reference to memory by its check and its cycle; the odd address by the word it lies in. -/
theorem loadFromMemory : Obligations.LoadFromMemory := by
  refine ⟨fun s g va m hg hm h => ⟨readWordIn_plain hg hm h, readByteIn_plain hg hm h⟩, fun s va w heven => ?_⟩
  have hword : (va + 1).toNat / 2 = va.toNat / 2 := by
    rw [getLsbD_zero_eq, decide_eq_false_iff_not] at heven
    bv_omega
  exact ⟨readWord_sameWord hword s, writeWord_sameWord hword w s⟩

/-- Where memory answers, a read-modify-write reads the word that is there and leaves what the write leaves (R104). -/
theorem rewritesWord_plain_iff {s g : State} {va : Word} {m : Mapped} (hg : busGrant s = .ok ⟨⟩ g)
    (hm : translate s.mode va true s = .ok m s) (h : plainMemory s m.pa = true) {old new : Word} {p : Bool} {u : State} :
    rewritesWord (.mem va) s old new p u ↔
      old = g.mem.readWord (wordPlace s m.pa) ∧ p = false ∧ u = g.stored m .word new := by
  have hplain := plainMemory_granted hg h
  have hr := readCycle_plain hplain
  rw [wordPlace_granted hg] at hr
  constructor
  · rintro ⟨m', g', x, hm', hg', hread, hwrite⟩
    cases hm.symm.trans hm'
    cases hg.symm.trans hg'
    cases hr.symm.trans hread
    cases (writeBack_plain hplain .word new).symm.trans hwrite
    exact ⟨rfl, rfl, rfl⟩
  · rintro ⟨rfl, rfl, rfl⟩
    exact ⟨m, g, g, hm, hg, hr, writeBack_plain hplain .word new⟩

theorem rewritesByte_plain_iff {s g : State} {va : Word} {m : Mapped} (hg : busGrant s = .ok ⟨⟩ g)
    (hm : translate s.mode va true s = .ok m s) (h : plainMemory s m.pa = true) {old new : Byte} {p : Bool} {u : State} :
    rewritesByte (.mem va) s old new p u ↔
      old = g.mem.read (memoryAddr s.cfg m.pa) ∧ p = false ∧ u = g.stored m .byte (onBothLanes new) := by
  have hplain := plainMemory_granted hg h
  have hr := readCycle_plain hplain
  rw [wordPlace_granted hg] at hr
  constructor
  · rintro ⟨m', w, g', x, hm', hg', hread, rfl, hwrite⟩
    cases hm.symm.trans hm'
    cases hg.symm.trans hg'
    cases hr.symm.trans hread
    cases (writeBack_plain hplain .byte (onBothLanes new)).symm.trans hwrite
    exact ⟨selectByte_readWord _ _ _, rfl, rfl⟩
  · rintro ⟨rfl, rfl, rfl⟩
    exact ⟨m, _, g, g, hm, hg, hr, (selectByte_readWord _ _ _).symm, writeBack_plain hplain .byte (onBothLanes new)⟩

/-- Settles O12: the lane written and the W bit set, by a write and by a read-modify-write. -/
theorem storeToMemory : Obligations.StoreToMemory := by
  intro s g va w b m hwf hg hm h marked
  have hplace := wordPlace_granted hg m.pa
  obtain rfl := (busGrant_ok hg).1
  have hgwf := granted_wf hwf
  have hmarked : s.mmu.marked m.page = marked := by
    simp only [marked]
    rcases m.page with _ | ⟨p, n⟩ <;> rfl
  have hframe : ∀ size v, s.granted.stored m size v
      = { s.granted with mem := (s.granted.stored m size v).mem, mmu := marked } := fun size v => by
    rw [← hmarked]
    rfl
  refine ⟨⟨_, writeWordIn_plain hg hm h w, ?_, ?_, fun a hlow hhigh => ?_, hframe _ _, fun _ _ _ =>
    rewritesWord_plain_iff hg hm h⟩, ⟨_, writeByteIn_plain hg hm h b, ?_, fun a ha => ?_, hframe _ _, fun _ _ _ =>
    rewritesByte_plain_iff hg hm h⟩⟩
  · exact Memory.read_writeLane_low hgwf _ w
  · exact Memory.read_writeLane_high hgwf _ w
  · exact Memory.read_writeLane_other _ a .word w hlow hhigh
  · refine (Memory.read_writeLane_byte_same hgwf s.cfg m.pa _).trans ?_
    rw [onBothLanes, highByte_wordOf, lowByte_wordOf, ite_self]
  · exact read_writeLane_byte _ s.cfg _ _ ha

/-! The cycles of the DMA masters (spec/20_memory.md R150, R151). -/

theorem dmaReaches_iff {s : State} {pa : PAddr} :
    dmaReaches s.cfg pa = true ↔ isIoPage pa = false ∧ populated s.cfg (wordPlace s pa) = true := by
  rw [dmaReaches, Bool.and_eq_true, Bool.not_eq_true']
  rfl

theorem afterDma_dati (s : State) (pa : PAddr) : s.afterDma [.dati pa]
    = { s with bus := { s.bus with seen := s.bus.seen ++ [dmaRead s.cfg pa s.mem] } } := rfl

theorem afterDma_dato (s : State) (pa : PAddr) (size : Size) (v : Word) :
    s.afterDma [.dato pa size v] = { s with mem := dmaWrite s.cfg pa size v s.mem } := rfl

theorem dmaRead_reached {s : State} {pa : PAddr} (h : dmaReaches s.cfg pa = true) :
    dmaRead s.cfg pa s.mem = some (s.mem.readWord (wordPlace s pa)) := if_pos h

theorem dmaWrite_reached {s : State} {pa : PAddr} (h : dmaReaches s.cfg pa = true) (size : Size) (v : Word) :
    dmaWrite s.cfg pa size v s.mem = s.mem.writeLane (wordPlace s pa) (laneOf size pa) v := if_pos h

/-- A cycle that nothing answers changes nothing but the record of what was read. -/
theorem afterDma_unreached {s : State} {pa : PAddr} (h : ¬dmaReaches s.cfg pa = true) (size : Size) (v : Word) :
    s.afterDma [.dati pa] = { s with bus := { s.bus with seen := s.bus.seen ++ [none] } }
      ∧ s.afterDma [.dato pa size v] = s := by
  rw [afterDma_dati, afterDma_dato, dmaRead, dmaWrite, if_neg h, if_neg h]
  exact ⟨rfl, rfl⟩

/-- Cycles that come as the input of a step come after all else that its start does (log 43). -/
theorem tick_dma {s : State} {cs : List DmaCycle} {rest : List Input} (h : s.inputs = .dma cs :: rest) :
    tick s = (tick { s with inputs := .quiet :: rest }).afterDma cs := by
  have hticked : State.ticked { s with inputs := .quiet :: rest } = s.ticked := by
    simp only [State.ticked, State.transmitted, h, List.tail_cons]
    split <;> rfl
  have hquiet : tick { s with inputs := .quiet :: rest } = s.ticked := by rw [tick_of_inputs rfl, hticked, applyInput]
  rw [tick_of_inputs h, hquiet, applyInput]

/-- Settles O13: a turn cycle by cycle, each by what it reads or writes where memory answers. -/
theorem dmaTurn : Obligations.DmaTurn := by
  intro s
  refine ⟨fun hl => by rw [busGrant_run, if_neg hl], rfl, granted_quiet, fun cs rest => tick_dma, rfl, fun _ _ => rfl,
    fun pa size v => ?_⟩
  intro reached seeing
  have hreached : reached ↔ dmaReaches s.cfg pa = true := dmaReaches_iff.symm
  refine ⟨fun h => ?_, fun h => afterDma_unreached (mt hreached.mpr h) size v, rfl, fun hwf h => ?_⟩
  · rw [afterDma_dati, dmaRead_reached (hreached.mp h)]
    rfl
  · rw [afterDma_dato, afterDma_dato, dmaWrite_reached (hreached.mp h), dmaWrite_reached (hreached.mp h)]
    exact ⟨⟨rfl, Memory.read_writeLane_low hwf _ v, Memory.read_writeLane_high hwf _ v,
        fun a hlow hhigh => Memory.read_writeLane_other _ a .word v hlow hhigh⟩,
      rfl, Memory.read_writeLane_byte_same hwf s.cfg pa v, fun a ha => read_writeLane_byte _ s.cfg _ _ ha⟩

end Sys2Proof.Machine

namespace Sys2Proof.Machine

/-! Taking an exception (spec/60_exceptions.md R720, R721). -/

/-! The PS a trap sequence loads. -/

theorem trapPs_eq (old new : Word) : trapPs old new = (new &&& 0o140777) ||| ((old &&& 0o140000) >>> 2) := by
  have hmode : (psMode old).bits = old.extractLsb' 14 2 := ofField_bits _
  rw [trapPs, hmode, merge]
  refine BitVec.eq_of_getLsbD_eq fun i hi => ?_
  interval_cases i <;> simp [psImplemented]

/-- The mode a trap sequence loads is that of the vector. -/
theorem psMode_trapPs (old new : Word) : psMode (trapPs old new) = psMode new := by
  have hfield : (trapPs old new).extractLsb' 14 2 = new.extractLsb' 14 2 := by
    rw [trapPs_eq]
    refine BitVec.eq_of_getLsbD_eq fun i hi => ?_
    interval_cases i <;> simp
  rw [psMode, psMode, hfield]

/-! A trap sequence part by part. -/

theorem performTrap_of_ok {req : TrapRequest} {s t : State} (h : trapSequence req s = .ok ⟨⟩ t) :
    performTrap req s = { t with pend := { t.pend with trap := none } } := by
  rw [performTrap, h]

theorem performTrap_of_error {req : TrapRequest} {s t : State} {e : Stop} (h : trapSequence req s = .error e t) :
    performTrap req s = { t with pend := { t.pend with trap := some e.request } } := by
  rw [performTrap, h]

/-- The steps of a trap sequence that follow the loading of the PS, with the state `old` before it. -/
def trapStacks (req : TrapRequest) (old : State) : M Unit := do
  pushTrap req.kind old.ps
  pushTrap req.kind old.regs.pc
  let newPc ← readWordIn .kernel req.vector
  modify fun s => { s with regs := { s.regs with pc := newPc } }

theorem trapSequence_of_error {req : TrapRequest} {s t : State} {e : Stop}
    (h : readWordIn .kernel (req.vector + 2) { s with run := .running } = .error e t) :
    trapSequence req s = .error e t :=
  bind_of_error (x := readWordIn .kernel (req.vector + 2)) h

/-- Once the PS of the vector is read, it is loaded and the old state is stacked. -/
theorem trapSequence_of_ok {req : TrapRequest} {s a : State} {newPs : Word}
    (h : readWordIn .kernel (req.vector + 2) { s with run := .running } = .ok newPs a) :
    trapSequence req s = trapStacks req a (trapLoaded req.kind newPs a) := by
  refine (bind_of_ok (run_modify _ s)).trans ((bind_of_ok h).trans ((bind_of_ok (run_get a)).trans
    ((bind_of_ok (run_modify _ a)).trans ?_)))
  by_cases hkind : req.kind = .emergency
  · simp only [hkind, if_true, trapPs_eq, trapLoaded]
    rw [bind_of_ok (writeReg_run _ _ _), trapStacks, hkind]
  · simp only [hkind, if_false, trapPs_eq, trapLoaded]
    rfl

/-- The end of a push of a trap sequence from that of its write: a timeout asks for the emergency stack (R722). -/
def pushEnd : EStateM.Result Stop State Bool → EStateM.Result Stop State Unit
  | .ok _ t => .ok ⟨⟩ t
  | .error (.abort .timeout) t => .error .deadStack t
  | .error e t => .error e t

theorem pushEnd_abort {k : AbortKind} (hk : k ≠ .timeout) (t : State) :
    pushEnd (.error (.abort k) t) = .error (.abort k) t := by
  cases k with
  | timeout => exact absurd rfl hk
  | _ => rfl

theorem pushTrap_of_trapPushes {kind : TrapKind} {v : Word} {s : State} {r : EStateM.Result Stop State Bool}
    (h : trapPushes kind v s r) : pushTrap kind v s = pushEnd r := by
  obtain ⟨sp, u, hsp, hr⟩ := h
  subst hr
  refine (bind_of_ok hsp).trans ((bind_of_ok (writeReg_run _ _ _)).trans ?_)
  by_cases hkind : kind = .ordinary
  · refine (congrFun (if_pos hkind) _).trans ((bind_of_ok (noteStackLimit_run _ _)).trans ?_)
    simp only [hkind, true_and]
    rfl
  · refine (congrFun (if_neg hkind) _).trans ?_
    simp only [hkind, false_and, if_false]
    rfl

section Stacks

variable {req : TrapRequest} {s a d e t : State} {p q : Bool} {k : AbortKind}

theorem trapStacks_of_abort (hk : k ≠ .timeout)
    (h : trapPushes req.kind a.ps s (.error (.abort k) t)
      ∨ ∃ p d, trapPushes req.kind a.ps s (.ok p d) ∧ trapPushes req.kind a.regs.pc d (.error (.abort k) t)) :
    trapStacks req a s = .error (.abort k) t := by
  have hend := pushEnd_abort hk t
  rcases h with hps | ⟨p, d, hps, hpc⟩
  · exact bind_of_error ((pushTrap_of_trapPushes hps).trans hend)
  · exact (bind_of_ok (pushTrap_of_trapPushes hps)).trans (bind_of_error ((pushTrap_of_trapPushes hpc).trans hend))

/-- Once both words are stacked the PC of the vector is read and loaded. -/
theorem trapStacks_of_ok (hps : trapPushes req.kind a.ps s (.ok p d)) (hpc : trapPushes req.kind a.regs.pc d (.ok q e)) :
    trapStacks req a s = (readWordIn .kernel req.vector >>= fun newPc =>
      modify fun s => { s with regs := { s.regs with pc := newPc } }) e :=
  (bind_of_ok (pushTrap_of_trapPushes hps)).trans (bind_of_ok (pushTrap_of_trapPushes hpc))

end Stacks

/-- A trap sequence whose four references answer. -/
theorem performTrap_of_pushes {req : TrapRequest} {s a d e t : State} {newPs newPc : Word} {p q : Bool}
    (hvector : readWordIn .kernel (req.vector + 2) { s with run := .running } = .ok newPs a)
    (hps : trapPushes req.kind a.ps (trapLoaded req.kind newPs a) (.ok p d))
    (hpc : trapPushes req.kind a.regs.pc d (.ok q e)) (hread : readWordIn .kernel req.vector e = .ok newPc t) :
    performTrap req s = { t with regs := { t.regs with pc := newPc }, pend := { t.pend with trap := none } } :=
  performTrap_of_ok ((trapSequence_of_ok hvector).trans ((trapStacks_of_ok hps hpc).trans (bind_of_ok hread)))

/-! A write marks a page and moves no reference (spec/20_memory.md R131). -/

theorem pdr_marked (m : Mmu) (page : Option (PageSet × Fin 8)) (p : PageSet) (n : Fin 8) :
    (m.marked page).pdr p n = if page = some (p, n) then m.pdr p n ||| 0o100 else m.pdr p n := by
  rcases page with _ | ⟨p', n'⟩
  · rfl
  · cases p <;> cases p' <;> simp [Mmu.marked, Mmu.withPdr, Mmu.pdr, pdrW, Vector.getElem_set, Fin.ext_iff]
    all_goals exact if_ctx_congr Iff.rfl (fun h => by simp only [h]) fun _ => rfl

theorem marked_frame (m : Mmu) (page : Option (PageSet × Fin 8)) :
    m.marked page = { m with kpdr := (m.marked page).kpdr, updr := (m.marked page).updr } := by
  rcases page with _ | ⟨p, n⟩
  · rfl
  · cases p <;> rfl

/-- The W bit takes no part in the check of a reference. -/
theorem pageFlags_marked (pdr va : Word) (write : Bool) : pageFlags (pdr ||| 0o100) va write = pageFlags pdr va write := by
  have hacf : acfOf (pdr ||| 0o100) = acfOf pdr := by
    rw [acfOf, acfOf, BitVec.extractLsb'_or]
    exact BitVec.or_zero
  have hplf : (pdr ||| 0o100).extractLsb' 8 7 = pdr.extractLsb' 8 7 := by
    rw [BitVec.extractLsb'_or]
    exact BitVec.or_zero
  have hed : (pdr ||| 0o100).getLsbD 3 = pdr.getLsbD 3 := by
    rw [BitVec.getLsbD_or]
    exact Bool.or_false _
  have houtside : outsideLength (pdr ||| 0o100) va = outsideLength pdr va := by
    rw [outsideLength, outsideLength, hplf, hed]
  rw [pageFlags, pageFlags, houtside, nonresident, nonresident, readOnlyViolation, readOnlyViolation, hacf]

theorem translate_enabled {s : State} {mode : Mode} {va : Word} {write : Bool} {p : PageSet} (hon : s.relocating = true)
    (hp : pageSetOf mode = some p) (hf : pageFlags (s.mmu.pdr p (pageOf va)) va write = 0) :
    translate mode va write s = .ok { pa := relocate s.mmu p va, page := some (p, pageOf va) } s := by
  simp only [translate, run_bind, run_get, hon, if_true, hp, hf, run_pure]

/-- A reference that is made is made alike from a state where another page is marked. -/
theorem translate_marked {s t : State} {mode : Mode} {va : Word} {write : Bool} {m : Mapped}
    {page : Option (PageSet × Fin 8)} (h : translate mode va write s = .ok m s) (ht : t.mmu = s.mmu.marked page) :
    translate mode va write t = .ok m t := by
  have hframe := marked_frame s.mmu page
  rw [← ht] at hframe
  have hrelocating : t.relocating = s.relocating := by rw [State.relocating, hframe]; rfl
  obtain ⟨-, ⟨hoff, rfl⟩ | ⟨hon, p, hp, hf, rfl⟩⟩ := translate_ok h
  · exact translate_disabled (hrelocating.trans hoff) mode va write
  · have hpdr : pageFlags (t.mmu.pdr p (pageOf va)) va write = 0 := by
      rw [ht, pdr_marked]
      split
      · rw [pageFlags_marked, hf]
      · exact hf
    have hplace : relocate t.mmu p va = relocate s.mmu p va := by
      rw [hframe]
      cases p <;> rfl
    rw [translate_enabled (hrelocating.trans hon) hp hpdr, hplace]

/-! Where the words of a reference lie: relocation keeps the place in a block (spec/20_memory.md R122). -/

theorem wordPlace_mod {s : State} {mode : Mode} {va : Word} {write : Bool} {m : Mapped}
    (h : translate mode va write s = .ok m s) : wordPlace s m.pa % 64 = va.toNat % 64 / 2 * 2 := by
  have hdib : m.pa.toNat % 64 = va.toNat % 64 := by
    obtain ⟨-, ⟨-, rfl⟩ | ⟨-, p, -, -, rfl⟩⟩ := translate_ok h
    · rw [unmapped_toNat]
      split <;> omega
    · rw [relocate_toNat]
      dsimp only
      split_ifs <;> omega
  simp only [wordPlace, evenAddr, memoryAddr]
  cases s.cfg.busWidth <;> dsimp only <;> omega

theorem wordPlace_even (s : State) (pa : PAddr) : wordPlace s pa % 2 = 0 := Nat.mul_mod_left _ 2

/-- Two words pushed one after the other lie at different places, whatever the mapping. -/
theorem wordPlace_pushes_ne {s : State} {mode : Mode} {sp : Word} {m1 m2 : Mapped}
    (h1 : translate mode (sp - 2) true s = .ok m1 s) (h2 : translate mode (sp - 4) true s = .ok m2 s) :
    wordPlace s m1.pa ≠ wordPlace s m2.pa := by
  intro heq
  have hplace : (sp - 2).toNat % 64 / 2 * 2 = (sp - 4).toNat % 64 / 2 * 2 := by
    rw [← wordPlace_mod h1, ← wordPlace_mod h2, heq]
  bv_omega

/-! A push of a trap sequence into memory. -/

theorem spCell_withSp_same (g : Regs) (m : Mode) (w : Word) : spCell (g.withSp m w) m = w := by
  cases m <;> rfl

theorem readReg_sp {s : State} {mode : Mode} (hmode : s.mode = mode) (h : mode ≠ .illegal) :
    readReg .sp s = .ok (spCell s.regs mode) s := by
  simp only [readReg, run_bind, run_get, readSpOf_ok, hmode]
  cases mode with
  | illegal => exact absurd rfl h
  | _ => rfl

/-- R6 of a mode moved down for a push, the kernel stack limit noted (R715). -/
def State.pushing (s : State) (mode : Mode) (sp : Word) : State :=
  { s with
    regs := s.regs.withSp mode sp
    pend := { s.pend with stkovf := s.pend.stkovf || decide (mode = .kernel ∧ sp.toNat < 0o400) } }

theorem pushing_of_limit {mode : Mode} {sp : Word} (h : mode = .kernel ∧ sp.toNat < 0o400) (s : State) :
    s.pushing mode sp = { s with regs := s.regs.withSp mode sp, pend := { s.pend with stkovf := true } } := by
  rw [State.pushing, decide_eq_true h, Bool.or_true]

theorem pushing_of_no_limit {mode : Mode} {sp : Word} (h : ¬(mode = .kernel ∧ sp.toNat < 0o400)) (s : State) :
    s.pushing mode sp = { s with regs := s.regs.withSp mode sp } := by
  rw [State.pushing, decide_eq_false h, Bool.or_false]

/-- With no DMA, a push of an ordinary trap sequence moves R6, notes the limit and stores its word. -/
theorem trapPushes_plain {s : State} {mode : Mode} {sp : Word} {m : Mapped} (hq : s.quiet = true) (hmode : s.mode = mode)
    (hlegal : mode ≠ .illegal) (hsp : spCell s.regs mode = sp) (hm : translate mode (sp - 2) true s = .ok m s)
    (h : plainMemory s m.pa = true) (v : Word) :
    trapPushes .ordinary v s (.ok false ((s.pushing mode (sp - 2)).stored m .word v)) := by
  subst hmode hsp
  refine ⟨_, s, readReg_sp rfl hlegal, ?_⟩
  have hwrite := writeWordIn_plain (s := s.pushing s.mode (spCell s.regs s.mode - 2)) (busGrant_quiet hq)
    (translate_marked (page := none) hm rfl) h v
  simp only [true_and, withReg_mode]
  split
  · rename_i hlimit
    rw [pushing_of_limit hlimit] at hwrite ⊢
    exact hwrite
  · rename_i hlimit
    rw [pushing_of_no_limit hlimit] at hwrite ⊢
    exact hwrite

end Sys2Proof.Machine

namespace Sys2Proof.Machine

/-! An ordinary trap sequence with its words in memory and no DMA. -/

/-- The state in which an ordinary trap sequence pushes the old PS. -/
def State.trapStart (s : State) (newPs : Word) : State := trapLoaded .ordinary newPs { s with run := .running }

/-- The state in which it pushes the old PC, the PS stored through the reference `m1`. -/
def State.psPushed (s : State) (newPs : Word) (mode : Mode) (sp : Word) (m1 : Mapped) : State :=
  ((s.trapStart newPs).pushing mode (sp - 2)).stored m1 .word s.ps

/-- The state after both pushes, the PC stored through the reference `m2`. -/
def State.trapPushed (s : State) (newPs : Word) (mode : Mode) (sp : Word) (m1 m2 : Mapped) : State :=
  ((s.psPushed newPs mode sp m1).pushing mode (sp - 4)).stored m2 .word s.regs.pc

/-- The mode of the pushes is that of the vector. -/
theorem trapStart_mode (s : State) (newPs : Word) : (s.trapStart newPs).mode = psMode newPs := by
  rw [← psMode_trapPs s.ps newPs, trapPs_eq]
  rfl

section TrapInMemory

variable {s : State} {v newPs sp : Word} {mode : Mode} {m0 m1 m2 m3 : Mapped}

/-- The four references answer, and the words go where they are mapped. -/
theorem performTrap_plain (hq : s.quiet = true) (hlegal : mode ≠ .illegal)
    (hps : s.mem.readWord (wordPlace s m0.pa) = newPs) (hmode : psMode newPs = mode) (hsp : spCell s.regs mode = sp)
    (h0 : translate .kernel (v + 2) false s = .ok m0 s) (h1 : translate mode (sp - 2) true s = .ok m1 s)
    (h2 : translate mode (sp - 4) true s = .ok m2 s) (h3 : translate .kernel v false s = .ok m3 s)
    (hplain : ∀ m ∈ [m0, m1, m2, m3], plainMemory s m.pa = true) :
    let e := s.trapPushed newPs mode sp m1 m2
    performTrap { vector := v, kind := .ordinary } s = { e with
      regs := { e.regs with pc := e.mem.readWord (wordPlace s m3.pa) }, pend := { e.pend with trap := none } } := by
  simp only [List.forall_mem_cons] at hplain
  obtain ⟨hplain0, hplain1, hplain2, hplain3, -⟩ := hplain
  have hsub : sp - 2 - 2 = sp - 4 := by bv_omega
  have hstart : (s.trapStart newPs).mode = mode := (trapStart_mode s newPs).trans hmode
  have hvector : readWordIn .kernel (v + 2) { s with run := .running } = .ok newPs { s with run := .running } := by
    rw [← hps]
    exact readWordIn_plain (s := { s with run := .running }) (busGrant_quiet hq) (translate_marked (page := none) h0 rfl)
      hplain0
  have hpushPs : trapPushes .ordinary s.ps (s.trapStart newPs) (.ok false (s.psPushed newPs mode sp m1)) :=
    trapPushes_plain (s := s.trapStart newPs) hq hstart hlegal hsp (translate_marked (page := none) h1 rfl) hplain1 s.ps
  have hpushPc : trapPushes .ordinary s.regs.pc (s.psPushed newPs mode sp m1)
      (.ok false (s.trapPushed newPs mode sp m1 m2)) := by
    have hm : translate mode (sp - 2 - 2) true (s.psPushed newPs mode sp m1)
        = .ok m2 (s.psPushed newPs mode sp m1) := by
      rw [hsub]
      exact translate_marked (page := m1.page) h2 rfl
    have hpush := trapPushes_plain (s := s.psPushed newPs mode sp m1) hq hstart hlegal (spCell_withSp_same _ _ _) hm
      hplain2 s.regs.pc
    rwa [hsub] at hpush
  have hm3 : translate .kernel v false (s.psPushed newPs mode sp m1) = .ok m3 (s.psPushed newPs mode sp m1) :=
    translate_marked (page := m1.page) h3 rfl
  have hread : readWordIn .kernel v (s.trapPushed newPs mode sp m1 m2) = .ok _ _ :=
    readWordIn_plain (busGrant_quiet hq) (translate_marked (page := m2.page) hm3 rfl) hplain3
  exact performTrap_of_pushes (req := { vector := v, kind := .ordinary }) hvector hpushPs hpushPc hread

/-- The memory after the two pushes. -/
theorem trapPushed_mem : (s.trapPushed newPs mode sp m1 m2).mem
    = (s.mem.writeLane (wordPlace s m1.pa) .word s.ps).writeLane (wordPlace s m2.pa) .word s.regs.pc := rfl

theorem trapPushed_read_other {a : Nat} (h1 : a ≠ wordPlace s m1.pa) (h1' : a ≠ wordPlace s m1.pa + 1)
    (h2 : a ≠ wordPlace s m2.pa) (h2' : a ≠ wordPlace s m2.pa + 1) :
    (s.trapPushed newPs mode sp m1 m2).mem.read a = s.mem.read a := by
  rw [trapPushed_mem, Memory.read_writeLane_other _ _ _ _ h2 h2', Memory.read_writeLane_other _ _ _ _ h1 h1']

theorem trapPushed_readWord_pc (hwf : s.mem.wf = true) :
    (s.trapPushed newPs mode sp m1 m2).mem.readWord (wordPlace s m2.pa) = s.regs.pc := by
  rw [trapPushed_mem, Memory.readWord_writeLane_same (Memory.wf_writeLane _ _ _ hwf)]

theorem trapPushed_readWord_ps (hwf : s.mem.wf = true) (hne : wordPlace s m1.pa ≠ wordPlace s m2.pa) :
    (s.trapPushed newPs mode sp m1 m2).mem.readWord (wordPlace s m1.pa) = s.ps := by
  rw [trapPushed_mem, Memory.readWord_writeLane_other _ (wordPlace_even s m2.pa) (wordPlace_even s m1.pa) hne,
    Memory.readWord_writeLane_same hwf]

/-- The registers after the two pushes: R6 of the new mode alone has moved. -/
theorem trapPushed_regs : (s.trapPushed newPs mode sp m1 m2).regs = (s.regs.withSp mode (sp - 2)).withSp mode (sp - 4) := rfl

theorem trapPushed_stkovf : (s.trapPushed newPs mode sp m1 m2).pend.stkovf
    = (s.pend.stkovf || decide (mode = .kernel ∧ ((sp - 2).toNat < 0o400 ∨ (sp - 4).toNat < 0o400))) := by
  simp only [and_or_left, Bool.decide_or, ← Bool.or_assoc]
  rfl

theorem trapPushed_mmu : (s.trapPushed newPs mode sp m1 m2).mmu = (s.mmu.marked m1.page).marked m2.page := rfl

theorem trapPushed_mmu_frame : (s.trapPushed newPs mode sp m1 m2).mmu
    = { s.mmu with
      kpdr := (s.trapPushed newPs mode sp m1 m2).mmu.kpdr, updr := (s.trapPushed newPs mode sp m1 m2).mmu.updr } := by
  rw [trapPushed_mmu]
  generalize hm : s.mmu.marked m1.page = m
  rw [marked_frame m m2.page, ← hm, marked_frame s.mmu m1.page]

theorem trapPushed_pdr (p : PageSet) (n : Fin 8) : (s.trapPushed newPs mode sp m1 m2).mmu.pdr p n
    = if m1.page = some (p, n) ∨ m2.page = some (p, n) then s.mmu.pdr p n ||| 0o100 else s.mmu.pdr p n := by
  rw [trapPushed_mmu, pdr_marked, pdr_marked]
  by_cases h1 : m1.page = some (p, n)
  · rw [if_pos h1, if_pos (Or.inl h1), BitVec.or_assoc, BitVec.or_self, ite_self]
  · rw [if_neg h1]
    simp only [h1, false_or]

end TrapInMemory

/-- The two steps of R6 and the load of the PC leave every other register. -/
theorem sameRegsBut_trap (g : Regs) (mode : Mode) (sp sp' pc : Word) :
    sameRegsBut [.sp, .pc] mode g { (g.withSp mode sp).withSp mode sp' with pc := pc } := by
  constructor
  · intro r hr
    simp only [List.mem_cons, List.not_mem_nil, or_false, not_or] at hr
    obtain ⟨hsp, hpc⟩ := hr
    exact (regCell_withReg_other _ mode hpc pc).trans
      ((regCell_withReg_other _ mode hsp sp').trans (regCell_withReg_other g mode hsp sp))
  · intro m hm
    exact (spCell_withReg_other _ hm .pc pc).trans
      ((spCell_withSp_other _ hm sp').trans (spCell_withSp_other g hm sp))

namespace Exceptions

/-- Settles O18: the sequence reference by reference; with its words in memory, the state it leaves field by field. -/
theorem trapSequence : Obligations.TrapSequence := by
  unfold Obligations.TrapSequence
  intro due
  have hdue : ∀ {req s k t},
      performTrap req s = { t with pend := { t.pend with trap := some (Stop.abort k).request } } →
      performTrap req s = due k t := by
    intro req s k t h
    rw [h]
    cases k <;> rfl
  refine ⟨fun req s t k h => ?_, fun req s a newPs h => ⟨fun k t hk hpush => ?_, fun p d q e hps hpc =>
    ⟨fun k t hread => ?_, fun newPc t hread => performTrap_of_pushes h hps hpc hread⟩⟩, ?_⟩
  · obtain ⟨n, ht⟩ := abandoned_of_readWordIn h
    refine ⟨hdue (performTrap_of_error (trapSequence_of_error h)), ?_, ?_⟩ <;> rw [ht, grants_eq]
  · exact hdue (performTrap_of_error ((trapSequence_of_ok h).trans (trapStacks_of_abort hk hpush)))
  · exact hdue (performTrap_of_error
      ((trapSequence_of_ok h).trans ((trapStacks_of_ok hps hpc).trans (bind_of_error hread))))
  · intro s v m0 m1 m2 m3 newPs mode sp t hwf hq hlegal h0 h1 h2 h3 hplain
    have ht : t = _ := performTrap_plain hq hlegal rfl rfl rfl h0 h1 h2 h3 hplain
    clear_value t
    subst ht
    refine ⟨?_, rfl, trapPushed_readWord_ps hwf (wordPlace_pushes_ne h1 h2), trapPushed_readWord_pc hwf, rfl,
      spCell_withSp_same _ mode _, sameRegsBut_trap s.regs mode _ _ _, fun a => trapPushed_read_other,
      trapPushed_mmu_frame, trapPushed_pdr⟩
    rw [← trapPushed_stkovf (newPs := newPs) (m1 := m1) (m2 := m2)]
    rfl

end Exceptions

end Sys2Proof.Machine

namespace Sys2Proof.Machine

/-! Every instruction and every step has a next state (spec/30_encoding.md R232, spec/60_exceptions.md R700). -/

/-- The meaning of every instruction is a computation run to its end, and a run to its end is a next state. -/
theorem exec_next (i : Instr) (s : State) : ∃ t, exec i s = .next t := by
  cases i with
  | rtt => exact ⟨finish inhibitTrace (returnFromTrap s), rfl⟩
  | _ => exact ⟨finish sampleTrace _, rfl⟩

theorem fetchAndRun_next (s : State) : ∃ t, fetchAndRun s = .next t := by
  unfold fetchAndRun
  cases fetchOpcode s with
  | ok w t => exact exec_next (decodeWord w) t
  | error e t => exact ⟨performTrap e.request t, rfl⟩

theorem processorStep_next (s : State) : ∃ t, processorStep s = .next t := by
  unfold processorStep
  cases s.pend.trap with
  | some req => exact ⟨performTrap req s, rfl⟩
  | none =>
    dsimp only
    split
    · exact fetchAndRun_next _
    · cases service s with
      | acted t => exact ⟨t, rfl⟩
      | fetch t => exact fetchAndRun_next t

theorem runStateStep_next (s : State) : ∃ t, runStateStep s = .next t := by
  unfold runStateStep
  cases s.run with
  | running | waiting => exact processorStep_next s
  | halted | awaitingBpok | poweredDown => exact ⟨_, rfl⟩

/-- With an input there is a next state: a loss of power cuts the step short, any other input lets it run. -/
theorem step_next_of_inputs {s : State} (h : s.inputs ≠ []) : ∃ t, step s = .next t := by
  unfold step
  cases hi : s.inputs with
  | nil => exact absurd hi h
  | cons i rest =>
    cases i with
    | powerDown cycles => exact ⟨cutShort cycles s, rfl⟩
    | _ => exact runStateStep_next (tick s)

theorem step_of_no_inputs {s : State} (h : s.inputs = []) :
    step s = if s.run = .poweredDown then .fault .poweredDown else runStateStep (tick s) := by
  simp only [step, h]

theorem step_next_iff (s : State) : (∃ t, step s = .next t) ↔ ¬(s.run = .poweredDown ∧ s.inputs = []) := by
  constructor
  · rintro ⟨t, ht⟩ ⟨hrun, hi⟩
    rw [step_of_no_inputs hi, if_pos hrun] at ht
    cases ht
  · intro h
    by_cases hi : s.inputs = []
    · have hrun : s.run ≠ .poweredDown := fun hrun => h ⟨hrun, hi⟩
      rw [step_of_no_inputs hi, if_neg hrun]
      exact runStateStep_next (tick s)
    · exact step_next_of_inputs hi

/-- Settles O5: every meaning is run to its end, and only a machine without power and without inputs has no step. -/
theorem nothingStops : Obligations.NothingStops := ⟨exec_next, step_next_iff⟩

/-! What goes through a vector instead of running. -/

/-- The end of an instruction that goes through a vector: its trap sequence, which completes it (R712, log 35). -/
def throughVector (v : Word) (s : State) : Host.Outcome State Fault Refusal :=
  .next (completeTrap (performTrap { vector := v, kind := .ordinary } s))

theorem runInstr_raiseTrap (v : Word) (s : State) : runInstr (raiseTrap v) s = throughVector v s :=
  runInstr_trap (raiseTrap_run v s)

/-- A floating-point instruction is reserved without its option (spec/30_encoding.md R217). -/
theorem runInstr_fpInstr_absent {s : State} (h : s.cfg.fpPresent = false) (body : Word → FpModes → M Unit) :
    runInstr (fpInstr body) s = throughVector 0o10 s := by
  refine runInstr_trap ?_
  simp only [fpInstr, run_bind, run_get, h, Bool.false_eq_true, if_false, run_throw, vectorReserved]

/-- A suspendable commercial instruction is reserved without its option (R217, spec/48_cis_character.md R580). -/
theorem runInstr_cisInstr_absent {s : State} (h : s.cfg.cisPresent = false) (body : Word → M Unit) :
    runInstr (cisInstr body) s = throughVector 0o10 s := by
  refine runInstr_trap ?_
  simp only [cisInstr, run_bind, run_get, h, Bool.false_eq_true, if_false, raiseTrap_run, vectorReserved]

/-- A load of descriptors is reserved without the commercial option (R217, spec/48_cis_character.md R580). -/
theorem exec_loadDescriptors_absent {s : State} (h : s.cfg.cisPresent = false) (r : Reg) :
    exec (.l2d r) s = throughVector 0o10 s ∧ exec (.l3d r) s = throughVector 0o10 s := by
  constructor <;> refine runInstr_trap ?_ <;>
    simp only [run_bind, run_get, h, Bool.false_eq_true, if_false, raiseTrap_run, vectorReserved]

/-- HALT traps outside kernel mode, and in it with `HALT_TRAP` unless power is failing (spec/45_misc_cc_mmu_ps.md R430). -/
theorem haltAction_traps {s : State} (h : s.mode ≠ .kernel ∨ (s.lines.bpok = true ∧ s.cfg.haltTrap = true)) :
    haltAction s = .error (.trap vectorReserved) s := by
  by_cases hm : s.mode = .kernel
  · obtain ⟨hb, ht⟩ := h.resolve_left (not_not_intro hm)
    simp [haltAction, run_bind, hm, hb, ht]
  · simp [haltAction, run_bind, hm]

/-- A register is no place to jump to (spec/44_jump_subroutine_trap.md R400, R401). -/
theorem jumpAddress_register (r : Reg) (s : State) :
    jumpAddress ⟨.register, r⟩ s = .error (.trap vectorIllegal) s := rfl

/-- Settles O19: the trap instructions and a reserved word raise their trap at once, HALT, JMP and JSR by their own test, and
the instructions of an absent option by the test of their frame. -/
theorem instructionTraps : Obligations.InstructionTraps := by
  intro s code word r q ac o
  dsimp only
  refine ⟨runInstr_raiseTrap _ s, runInstr_raiseTrap _ s, runInstr_raiseTrap _ s, runInstr_raiseTrap _ s,
    runInstr_raiseTrap _ s, fun hm => runInstr_trap (haltAction_traps (.inl hm)),
    fun hb ht => runInstr_trap (haltAction_traps (.inr ⟨hb, ht⟩)), fun hfp => ?_, fun hcis => ?_,
    runInstr_trap (bind_of_error (jumpAddress_register r s)), runInstr_trap (bind_of_error (jumpAddress_register r s))⟩
  · repeat refine List.forall_mem_cons.mpr ⟨runInstr_fpInstr_absent hfp _, ?_⟩
    exact List.forall_mem_nil _
  · obtain ⟨hl2d, hl3d⟩ := exec_loadDescriptors_absent hcis r
    refine List.forall_mem_cons.mpr ⟨hl2d, List.forall_mem_cons.mpr ⟨hl3d, ?_⟩⟩
    repeat refine List.forall_mem_cons.mpr ⟨runInstr_cisInstr_absent hcis _, ?_⟩
    exact List.forall_mem_nil _

end Sys2Proof.Machine

namespace Sys2Proof

open Laws.InTable (inRow)

/-! The fields of an operand and their numbers (spec/30_encoding.md R201, R211). -/

@[simp] theorem Reg.ofField_bits (r : Reg) : Reg.ofField r.bits.toNat = r := by cases r <;> rfl

@[simp] theorem AddrMode.ofField_bits (m : AddrMode) : AddrMode.ofField m.bits.toNat = m := by cases m <;> rfl

@[simp] theorem Ac.ofField_bits (a : Ac) : Ac.ofField a.bits.toNat = a := by cases a <;> rfl

theorem field_eq (w : Word) (lo len : Nat) : field w lo len = w.toNat / 2 ^ lo % 2 ^ len := by
  rw [field, BitVec.extractLsb'_toNat, Nat.shiftRight_eq_div_pow]

theorem Reg.bits_ofField (x : BitVec 3) : (Reg.ofField x.toNat).bits = x := by
  revert x
  decide

theorem AddrMode.bits_ofField (x : BitVec 3) : (AddrMode.ofField x.toNat).bits = x := by
  revert x
  decide

theorem Ac.bits_ofField (x : BitVec 2) : (Ac.ofField x.toNat).bits = x := by
  revert x
  decide

theorem regAt_bits (w : Word) (lo : Nat) : (regAt w lo).bits = w.extractLsb' lo 3 := Reg.bits_ofField _

theorem acOf_bits (w : Word) : (acOf w).bits = w.extractLsb' 6 2 := Ac.bits_ofField _

theorem operandAt_bits (w : Word) (lo : Nat) : (operandAt w lo).bits = w.extractLsb' lo 6 := by
  have hmode : (operandAt w lo).mode.bits = w.extractLsb' (lo + 3) 3 := AddrMode.bits_ofField _
  rw [Operand.bits, hmode]
  exact (congrArg _ (regAt_bits w lo)).trans (BitVec.extractLsb'_append_extractLsb'_eq_extractLsb' rfl)

theorem regAt_of_bits {w : Word} {lo : Nat} {r : Reg} (h : w.extractLsb' lo 3 = r.bits) : regAt w lo = r := by
  rw [regAt, field, h, Reg.ofField_bits]

theorem acOf_of_bits {w : Word} {a : Ac} (h : w.extractLsb' 6 2 = a.bits) : acOf w = a := by
  rw [acOf, field, h, Ac.ofField_bits]

theorem operandAt_of_bits {w : Word} {lo : Nat} {o : Operand} (h : w.extractLsb' lo 6 = o.bits) : operandAt w lo = o := by
  obtain ⟨m, r⟩ := o
  have hsplit : w.extractLsb' (lo + 3) 3 ++ w.extractLsb' lo 3 = m.bits ++ r.bits :=
    (BitVec.extractLsb'_append_extractLsb'_eq_extractLsb' rfl).trans h
  have hmode : w.extractLsb' (lo + 3) 3 = m.bits := by
    simpa only [BitVec.extractLsb'_append_eq_left] using congrArg (BitVec.extractLsb' 3 3) hsplit
  have hreg : w.extractLsb' lo 3 = r.bits := by
    simpa only [BitVec.extractLsb'_append_eq_right] using congrArg (BitVec.extractLsb' 0 3) hsplit
  rw [operandAt, field, hmode, AddrMode.ofField_bits, regAt_of_bits hreg]

/-! What the decoder reads of a word of each format (R202 to R211): the leading bits select the instruction, the fields
give back what was put there. -/

@[simp] theorem field_withOperand (op : BitVec 10) (o : Operand) {lo : Nat} (len : Nat) (h : 6 ≤ lo) :
    field (withOperand op o) lo len = (op.extractLsb' (lo - 6) len).toNat :=
  congrArg BitVec.toNat (BitVec.extractLsb'_append_eq_of_le h)

@[simp] theorem dstOf_withOperand (op : BitVec 10) (o : Operand) : dstOf (withOperand op o) = o :=
  operandAt_of_bits BitVec.extractLsb'_append_eq_right

@[simp] theorem field_withTwoOperands (op : BitVec 4) (src dst : Operand) {lo : Nat} (len : Nat) (h : 12 ≤ lo) :
    field (withTwoOperands op src dst) lo len = (op.extractLsb' (lo - 12) len).toNat :=
  congrArg BitVec.toNat (BitVec.extractLsb'_append_eq_of_le h)

@[simp] theorem srcOf_withTwoOperands (op : BitVec 4) (src dst : Operand) : srcOf (withTwoOperands op src dst) = src :=
  operandAt_of_bits ((BitVec.extractLsb'_append_eq_of_add_le (by decide)).trans BitVec.extractLsb'_append_eq_left)

@[simp] theorem dstOf_withTwoOperands (op : BitVec 4) (src dst : Operand) : dstOf (withTwoOperands op src dst) = dst :=
  operandAt_of_bits ((BitVec.extractLsb'_append_eq_of_add_le (by decide)).trans BitVec.extractLsb'_append_eq_right)

@[simp] theorem field_withRegOperand (op : BitVec 7) (r : Reg) (o : Operand) {lo : Nat} (len : Nat) (h : 9 ≤ lo) :
    field (withRegOperand op r o) lo len = (op.extractLsb' (lo - 9) len).toNat :=
  congrArg BitVec.toNat (BitVec.extractLsb'_append_eq_of_le h)

@[simp] theorem regOf_withRegOperand (op : BitVec 7) (r : Reg) (o : Operand) : regOf (withRegOperand op r o) = r :=
  regAt_of_bits ((BitVec.extractLsb'_append_eq_of_add_le (by decide)).trans BitVec.extractLsb'_append_eq_left)

@[simp] theorem dstOf_withRegOperand (op : BitVec 7) (r : Reg) (o : Operand) : dstOf (withRegOperand op r o) = o :=
  operandAt_of_bits ((BitVec.extractLsb'_append_eq_of_add_le (by decide)).trans BitVec.extractLsb'_append_eq_right)

@[simp] theorem field_withLowByte (op : BitVec 8) (b : Byte) {lo : Nat} (len : Nat) (h : 8 ≤ lo) :
    field (withLowByte op b) lo len = (op.extractLsb' (lo - 8) len).toNat :=
  congrArg BitVec.toNat (BitVec.extractLsb'_append_eq_of_le h)

@[simp] theorem lowByteOf_withLowByte (op : BitVec 8) (b : Byte) : lowByteOf (withLowByte op b) = b :=
  BitVec.extractLsb'_append_eq_right

@[simp] theorem field_withAcOperand (op : BitVec 8) (ac : Ac) (o : Operand) {lo : Nat} (len : Nat) (h : 8 ≤ lo) :
    field (withAcOperand op ac o) lo len = (op.extractLsb' (lo - 8) len).toNat :=
  congrArg BitVec.toNat (BitVec.extractLsb'_append_eq_of_le h)

@[simp] theorem acOf_withAcOperand (op : BitVec 8) (ac : Ac) (o : Operand) : acOf (withAcOperand op ac o) = ac :=
  acOf_of_bits ((BitVec.extractLsb'_append_eq_of_add_le (by decide)).trans BitVec.extractLsb'_append_eq_left)

@[simp] theorem dstOf_withAcOperand (op : BitVec 8) (ac : Ac) (o : Operand) : dstOf (withAcOperand op ac o) = o :=
  operandAt_of_bits ((BitVec.extractLsb'_append_eq_of_add_le (by decide)).trans BitVec.extractLsb'_append_eq_right)

@[simp] theorem field_withReg (op : BitVec 13) (r : Reg) {lo : Nat} (len : Nat) (h : 3 ≤ lo) :
    field (op ++ r.bits) lo len = (op.extractLsb' (lo - 3) len).toNat :=
  congrArg BitVec.toNat (BitVec.extractLsb'_append_eq_of_le h)

@[simp] theorem regAt_withReg (op : BitVec 13) (r : Reg) : regAt (op ++ r.bits) 0 = r :=
  regAt_of_bits BitVec.extractLsb'_append_eq_right

@[simp] theorem field_withCount (op : BitVec 10) (nn : BitVec 6) {lo : Nat} (len : Nat) (h : 6 ≤ lo) :
    field (op ++ nn) lo len = (op.extractLsb' (lo - 6) len).toNat :=
  congrArg BitVec.toNat (BitVec.extractLsb'_append_eq_of_le h)

@[simp] theorem sixOf_withCount (op : BitVec 10) (nn : BitVec 6) : sixOf (op ++ nn) = nn :=
  BitVec.extractLsb'_append_eq_right

/-- Bits 15 to 9, register, word count (R206): the format of SOB, which the encoder writes out. -/
def withRegCount (op : BitVec 7) (r : Reg) (nn : BitVec 6) : Word := op ++ (r.bits ++ nn)

@[simp] theorem field_withRegCount (op : BitVec 7) (r : Reg) (nn : BitVec 6) {lo : Nat} (len : Nat) (h : 9 ≤ lo) :
    field (withRegCount op r nn) lo len = (op.extractLsb' (lo - 9) len).toNat :=
  congrArg BitVec.toNat (BitVec.extractLsb'_append_eq_of_le h)

@[simp] theorem regOf_withRegCount (op : BitVec 7) (r : Reg) (nn : BitVec 6) : regOf (withRegCount op r nn) = r :=
  regAt_of_bits ((BitVec.extractLsb'_append_eq_of_add_le (by decide)).trans BitVec.extractLsb'_append_eq_left)

@[simp] theorem sixOf_withRegCount (op : BitVec 7) (r : Reg) (nn : BitVec 6) : sixOf (withRegCount op r nn) = nn :=
  (BitVec.extractLsb'_append_eq_of_add_le (by decide)).trans BitVec.extractLsb'_append_eq_right

theorem encodeWord_sob (r : Reg) (nn : BitVec 6) : encodeWord (.sob r nn) = withRegCount 0o77 r nn := rfl

theorem decodeWord_clearCodes {mask : BitVec 4} (h : namedClearMask mask = false) :
    decodeWord (encodeWord (.clearCodes mask)) = .clearCodes mask := by
  revert mask
  decide

theorem decodeWord_setCodes {mask : BitVec 4} (h : namedSetMask mask = false) :
    decodeWord (encodeWord (.setCodes mask)) = .setCodes mask := by
  revert mask
  decide

/-- The op code of JSR ends at bit 9, one bit below the field that selects it (R204). -/
theorem decode00_jsr {w : Word} (h : field w 9 3 = 4) : decode00 w = .jsr (regOf w) (dstOf w) := by
  have h8 : field w 8 4 = 8 ∨ field w 8 4 = 9 := by
    rw [field_eq] at h ⊢
    omega
  rcases h8 with h8 | h8 <;> simp only [decode00, h8]

/-! A word put together again from the fields the decoder takes from it. -/

theorem extract_append_extract {n m : Nat} (w : BitVec (n + m)) : w.extractLsb' m n ++ w.extractLsb' 0 m = w :=
  (BitVec.extractLsb'_append_extractLsb'_eq_extractLsb' (Nat.zero_add m).symm).trans BitVec.extractLsb'_eq_self

/-- The leading bits of a word, told by their number. -/
theorem leading_eq {n m k : Nat} {w : BitVec k} {op : BitVec n} (h : w.toNat / 2 ^ m = op.toNat) :
    w.extractLsb' m n = op := by
  apply BitVec.eq_of_toNat_eq
  rw [BitVec.extractLsb'_toNat, Nat.shiftRight_eq_div_pow, h, Nat.mod_eq_of_lt op.isLt]

section Formats

variable {w : Word}

theorem withOperand_dstOf {op : BitVec 10} (h : w.toNat / 2 ^ 6 = op.toNat) : withOperand op (dstOf w) = w := by
  rw [withOperand, dstOf, operandAt_bits, ← leading_eq h]
  exact extract_append_extract (n := 10) (m := 6) w

theorem withTwoOperands_srcOf_dstOf {op : BitVec 4} (h : w.toNat / 2 ^ 12 = op.toNat) :
    withTwoOperands op (srcOf w) (dstOf w) = w := by
  have htrailing : (srcOf w).bits ++ (dstOf w).bits = w.extractLsb' 0 12 := by
    rw [srcOf, dstOf, operandAt_bits, operandAt_bits]
    exact BitVec.extractLsb'_append_extractLsb'_eq_extractLsb' rfl
  rw [withTwoOperands, htrailing, ← leading_eq h]
  exact extract_append_extract (n := 4) (m := 12) w

theorem withRegOperand_regOf_dstOf {op : BitVec 7} (h : w.toNat / 2 ^ 9 = op.toNat) :
    withRegOperand op (regOf w) (dstOf w) = w := by
  have htrailing : (regOf w).bits ++ (dstOf w).bits = w.extractLsb' 0 9 := by
    rw [regOf, regAt_bits, dstOf, operandAt_bits]
    exact BitVec.extractLsb'_append_extractLsb'_eq_extractLsb' rfl
  rw [withRegOperand, htrailing, ← leading_eq h]
  exact extract_append_extract (n := 7) (m := 9) w

theorem withRegCount_regOf_sixOf {op : BitVec 7} (h : w.toNat / 2 ^ 9 = op.toNat) :
    withRegCount op (regOf w) (sixOf w) = w := by
  have htrailing : (regOf w).bits ++ sixOf w = w.extractLsb' 0 9 := by
    rw [regOf, regAt_bits, sixOf]
    exact BitVec.extractLsb'_append_extractLsb'_eq_extractLsb' rfl
  rw [withRegCount, htrailing, ← leading_eq h]
  exact extract_append_extract (n := 7) (m := 9) w

theorem withLowByte_lowByteOf {op : BitVec 8} (h : w.toNat / 2 ^ 8 = op.toNat) : withLowByte op (lowByteOf w) = w := by
  rw [withLowByte, lowByteOf, ← leading_eq h]
  exact extract_append_extract (n := 8) (m := 8) w

theorem withAcOperand_acOf_dstOf {op : BitVec 8} (h : w.toNat / 2 ^ 8 = op.toNat) :
    withAcOperand op (acOf w) (dstOf w) = w := by
  have htrailing : (acOf w).bits ++ (dstOf w).bits = w.extractLsb' 0 8 := by
    rw [acOf_bits, dstOf, operandAt_bits]
    exact BitVec.extractLsb'_append_extractLsb'_eq_extractLsb' rfl
  rw [withAcOperand, htrailing, ← leading_eq h]
  exact extract_append_extract (n := 8) (m := 8) w

theorem withReg_regAt {op : BitVec 13} (h : w.toNat / 2 ^ 3 = op.toNat) : op ++ (regAt w 0).bits = w := by
  rw [regAt_bits, ← leading_eq h]
  exact extract_append_extract (n := 13) (m := 3) w

theorem withCount_sixOf {op : BitVec 10} (h : w.toNat / 2 ^ 6 = op.toNat) : op ++ sixOf w = w := by
  rw [sixOf, ← leading_eq h]
  exact extract_append_extract (n := 10) (m := 6) w

/-- What holds of every word with these leading bits holds of a word told by their number. -/
theorem of_leading {n m : Nat} {op : BitVec n} {P : Word → Prop} (hn : n + m = 16)
    (hP : ∀ b : BitVec m, P ((op ++ b).cast hn)) (h : w.toNat / 2 ^ m = op.toNat) : P w := by
  have hw : ((w.cast hn.symm).extractLsb' m n ++ (w.cast hn.symm).extractLsb' 0 m).cast hn = w := by
    rw [extract_append_extract, BitVec.cast_cast, BitVec.cast_eq]
  rw [leading_eq (op := op) (by rwa [BitVec.toNat_cast])] at hw
  exact hw ▸ hP _

end Formats

/-! No other instruction has a reserved or unassigned word (spec/30_encoding.md R216, R218, R221). -/

/-- The words of no instruction of the table: reserved, or unassigned in the floating-point group. -/
def illegalRows : List (Nat × Nat) := reservedRows ++ fpIllegalRows

/-- A row of the one list agrees with a row of the other on the bits that both fix. -/
def rowsMeet (rs qs : List (Nat × Nat)) : Bool := rs.any fun r => qs.any fun q => r.1 &&& q.2 == q.1 &&& r.2

theorem rowsMeet_of_inRows {rs qs : List (Nat × Nat)} {w : Word} (hr : inRows rs w = true) (hq : inRows qs w = true) :
    rowsMeet rs qs = true := by
  simp only [inRows, rowsMeet, List.any_eq_true, beq_iff_eq] at hr hq ⊢
  obtain ⟨r, hr, hwr⟩ := hr
  obtain ⟨q, hq, hwq⟩ := hq
  exact ⟨r, hr, q, hq, by rw [← hwr, ← hwq, Nat.and_right_comm]⟩

/-- A word is not in the rows that its leading bits keep it from. -/
theorem not_inRows_of_leading {n m : Nat} {qs : List (Nat × Nat)} (op : BitVec n) (b : BitVec m) (hn : n + m = 16)
    (h : rowsMeet [(op.toNat <<< m, (2 ^ n - 1) <<< m)] qs = false) : inRows qs ((op ++ b).cast hn) = false := by
  by_contra hq
  rw [rowsMeet_of_inRows (inRow op b hn) (Bool.eq_true_of_not_eq_false hq)] at h
  cases h

/-- The instruction stands for a reserved or an unassigned word. -/
def Instr.illegal : Instr → Bool
  | .reserved _ | .fpIllegal _ => true
  | _ => false

theorem encodeWord_not_illegal {i : Instr} (h : i.illegal = false) : inRows illegalRows (encodeWord i) = false := by
  cases i with
  | reserved | fpIllegal => cases h
  | jmp o | swab o | clr o | clrb o | com o | comb o | inc o | incb o | dec o | decb o | neg o | negb o | adc o | adcb o | sbc o
  | sbcb o | tst o | tstb o | ror o | rorb o | rol o | rolb o | asr o | asrb o | asl o | aslb o | mfpi o | mtpi o | sxt o
  | mtps o | mfpd o | mtpd o | mfps o | ldfps o | stfps o | stst o | clrf o | tstf o | absf o | negf o =>
    exact not_inRows_of_leading (n := 10) _ o.bits rfl (by decide)
  | mov s d | movb s d | cmp s d | cmpb s d | bit s d | bitb s d | bic s d | bicb s d | bis s d | bisb s d | add s d | sub s d =>
    exact not_inRows_of_leading (n := 4) _ (s.bits ++ d.bits) rfl (by decide)
  | jsr r o | mul r o | div r o | ash r o | ashc r o | xor r o =>
    exact not_inRows_of_leading (n := 7) _ (r.bits ++ o.bits) rfl (by decide)
  | br b | bne b | beq b | bge b | blt b | bgt b | ble b | bpl b | bmi b | bhi b | blos b | bvc b | bvs b | bcc b | bcs b
  | emt b | trap b => exact not_inRows_of_leading (n := 8) _ b rfl (by decide)
  | mulf a o | modf a o | addf a o | ldf a o | subf a o | cmpf a o | stf a o | divf a o | stexp a o | stcfi a o | stcfd a o
  | ldexp a o | ldcif a o | ldcdf a o => exact not_inRows_of_leading (n := 8) _ (a.bits ++ o.bits) rfl (by decide)
  | rts r | l2d r | l3d r => exact not_inRows_of_leading (n := 13) _ r.bits rfl (by decide)
  | mark nn => exact not_inRows_of_leading (n := 10) _ nn rfl (by decide)
  | sob r nn => exact not_inRows_of_leading (n := 7) _ (r.bits ++ nn) rfl (by decide)
  | clearCodes mask | setCodes mask => exact not_inRows_of_leading (n := 12) _ mask rfl (by decide)
  | _ => rfl

/-! The decoder, group by group: what it answers for a word is a well-formed instruction with that word. A group with at
most six free bits is checked ending by ending; any other is split along the arms of its decoder, whose number `h_n` a case
carries, and the leading bits of an arm are those of its op code. The last arm is the one left when no other applies. -/

/-- `i` is a well-formed instruction whose op-code word is `w` (spec/30_encoding.md R221). -/
abbrev Encodes (i : Instr) (w : Word) : Prop := i.wellFormed = true ∧ encodeWord i = w

section Groups

variable {w : Word}

/-- A group of words that share their leading bits, checked for each ending. -/
theorem encodes_of_leading {n m : Nat} {op : BitVec n} {d : Word → Instr} (hn : n + m = 16)
    (hd : ∀ b : BitVec m, Encodes (d ((op ++ b).cast hn)) ((op ++ b).cast hn)) (h : w.toNat / 2 ^ m = op.toNat) :
    Encodes (d w) w :=
  of_leading (P := fun w => Encodes (d w) w) hn hd h

/-- A word in the row of its leading bits. -/
theorem inRows_of_leading {n m : Nat} {op : BitVec n} {rows : List (Nat × Nat)} (hn : n + m = 16)
    (hrow : (op.toNat <<< m, (2 ^ n - 1) <<< m) ∈ rows) (h : w.toNat / 2 ^ m = op.toNat) : inRows rows w = true := by
  have hw : inRows [(op.toNat <<< m, (2 ^ n - 1) <<< m)] w = true :=
    of_leading (P := fun w => inRows [(op.toNat <<< m, (2 ^ n - 1) <<< m)] w = true) hn (fun b => inRow op b hn) h
  simp only [inRows, List.any_cons, List.any_nil, Bool.or_false] at hw
  exact List.any_eq_true.mpr ⟨_, hrow, hw⟩

theorem encodes_decodeNoOperand (h : w.toNat / 64 = 0) : Encodes (decodeNoOperand w) w :=
  encodes_of_leading (n := 10) (m := 6) (op := 0) rfl (by decide) h

theorem encodes_decodeRtsGroup (h : w.toNat / 64 = 2) : Encodes (decodeRtsGroup w) w :=
  encodes_of_leading (n := 10) (m := 6) (op := 2) rfl (by decide) h

theorem encodes_decodeLow (h : w.toNat / 256 = 0) : Encodes (decodeLow w) w := by
  simp only [decodeLow, field_eq, Nat.reducePow]
  split
  case h_1 => exact encodes_decodeNoOperand (by omega)
  case h_3 => exact encodes_decodeRtsGroup (by omega)
  case h_2 => exact ⟨rfl, withOperand_dstOf (by bv_omega)⟩
  case h_4 => exact ⟨rfl, withOperand_dstOf (by simp only [imp_false] at *; bv_omega)⟩

theorem encodes_decodeSingle (h : 10 ≤ w.toNat / 256 ∧ w.toNat / 256 ≤ 13) : Encodes (decodeSingle w) w := by
  simp only [decodeSingle, field_eq, Nat.reducePow]
  split
  case h_13 => -- MARK
    exact ⟨rfl, withCount_sixOf (by bv_omega)⟩
  case h_17 => -- no word of these pages
    simp only [imp_false] at *; omega
  all_goals exact ⟨rfl, withOperand_dstOf (by bv_omega)⟩

theorem encodes_decodeSingleByte (h : 138 ≤ w.toNat / 256 ∧ w.toNat / 256 ≤ 141) : Encodes (decodeSingleByte w) w := by
  simp only [decodeSingleByte, field_eq, Nat.reducePow]
  split
  case h_17 => -- no word of these pages
    simp only [imp_false] at *; omega
  all_goals exact ⟨rfl, withOperand_dstOf (by bv_omega)⟩

theorem encodes_decode00 (h : w.toNat / 4096 = 0) : Encodes (decode00 w) w := by
  simp only [decode00, field_eq, Nat.reducePow]
  split
  case h_1 => exact encodes_decodeLow (by omega)
  case h_9 | h_10 => -- JSR
    exact ⟨rfl, withRegOperand_regOf_dstOf (by bv_omega)⟩
  case h_11 | h_12 | h_13 | h_14 => exact encodes_decodeSingle (by omega)
  case h_15 => -- reserved: 007000 to 007777
    simp only [imp_false] at *
    exact ⟨inRows_of_leading (n := 7) (m := 9) (op := 0o7) rfl (by decide) (by bv_omega), rfl⟩
  all_goals exact ⟨rfl, withLowByte_lowByteOf (by bv_omega)⟩

theorem encodes_decode10 (h : w.toNat / 4096 = 8) : Encodes (decode10 w) w := by
  simp only [decode10, field_eq, Nat.reducePow]
  split
  case h_11 | h_12 | h_13 | h_14 => exact encodes_decodeSingleByte (by omega)
  case h_15 => -- reserved: 107000 to 107777
    simp only [imp_false] at *
    exact ⟨inRows_of_leading (n := 7) (m := 9) (op := 0o107) rfl (by decide) (by bv_omega), rfl⟩
  all_goals exact ⟨rfl, withLowByte_lowByteOf (by bv_omega)⟩

/-- Words 076200 to 076777 are no commercial instructions (R231). -/
theorem decodeCis_reserved (h : 16 ≤ field w 3 6) : decodeCis w = .reserved w := by
  unfold decodeCis
  split
  case h_11 => rfl
  all_goals omega

/-- Two pages of sixty-four words hold the commercial instructions, the rest is reserved (R212, R216, R231). -/
theorem encodes_decodeCis (h : w.toNat / 512 = 0o76) : Encodes (decodeCis w) w := by
  have hpage : w.toNat / 64 = 0o760 ∨ w.toNat / 64 = 0o761 ∨ w.toNat / 128 = 0o371 ∨ w.toNat / 256 = 0o175 := by omega
  rcases hpage with hpage | hpage | hpage | hpage
  · exact encodes_of_leading (n := 10) (m := 6) (op := 0o760) rfl (by decide) hpage
  · exact encodes_of_leading (n := 10) (m := 6) (op := 0o761) rfl (by decide) hpage
  · rw [decodeCis_reserved (by rw [field_eq]; omega)]
    exact ⟨inRows_of_leading (n := 9) (m := 7) (op := 0o371) rfl (by decide) hpage, rfl⟩
  · rw [decodeCis_reserved (by rw [field_eq]; omega)]
    exact ⟨inRows_of_leading (n := 8) (m := 8) (op := 0o175) rfl (by decide) hpage, rfl⟩

theorem encodes_decode07 (h : w.toNat / 4096 = 7) : Encodes (decode07 w) w := by
  simp only [decode07, field_eq, Nat.reducePow]
  split
  case h_6 => -- reserved: 075000 to 075777
    exact ⟨inRows_of_leading (n := 7) (m := 9) (op := 0o75) rfl (by decide) (by bv_omega), rfl⟩
  case h_7 => exact encodes_decodeCis (by omega)
  case h_8 => -- SOB
    exact ⟨rfl, withRegCount_regOf_sixOf (by simp only [imp_false] at *; bv_omega)⟩
  all_goals exact ⟨rfl, withRegOperand_regOf_dstOf (by bv_omega)⟩

theorem encodes_decodeFpNoOperand (h : w.toNat / 64 = 0o1700) : Encodes (decodeFpNoOperand w) w :=
  encodes_of_leading (n := 10) (m := 6) (op := 0o1700) rfl (by decide) h

theorem encodes_decodeFpSingle (h : w.toNat / 512 = 0o170) : Encodes (decodeFpSingle w) w := by
  simp only [decodeFpSingle, field_eq, Nat.reducePow]
  split
  case h_1 => exact encodes_decodeFpNoOperand (by omega)
  case h_8 => exact ⟨rfl, withOperand_dstOf (by simp only [imp_false] at *; bv_omega)⟩
  all_goals exact ⟨rfl, withOperand_dstOf (by bv_omega)⟩

theorem encodes_decode17 (h : w.toNat / 4096 = 15) : Encodes (decode17 w) w := by
  simp only [decode17, field_eq, Nat.reducePow]
  split
  case h_1 | h_2 => exact encodes_decodeFpSingle (by omega)
  case h_16 => exact ⟨rfl, withAcOperand_acOf_dstOf (by simp only [imp_false] at *; bv_omega)⟩
  all_goals exact ⟨rfl, withAcOperand_acOf_dstOf (by bv_omega)⟩

end Groups

theorem encodes_decodeWord (w : Word) : Encodes (decodeWord w) w := by
  simp only [decodeWord, field_eq, Nat.reducePow]
  split
  case h_1 => exact encodes_decode00 (by bv_omega)
  case h_8 => exact encodes_decode07 (by bv_omega)
  case h_9 => exact encodes_decode10 (by bv_omega)
  case h_16 => exact encodes_decode17 (by simp only [imp_false] at *; bv_omega)
  all_goals exact ⟨rfl, withTwoOperands_srcOf_dstOf (by bv_omega)⟩

/-- Settles O2: the decoder's tree, group by group. -/
theorem encodeOfDecode : Obligations.EncodeOfDecode := encodes_decodeWord

/-! Every well-formed instruction is what its word decodes to (R221). -/

/-- A reserved or unassigned word decodes to no instruction of the table, since the word of one is not in these rows. -/
theorem decodeWord_of_illegal {w : Word} (h : inRows illegalRows w = true) :
    decodeWord w = .reserved w ∨ decodeWord w = .fpIllegal w := by
  obtain ⟨_, henc⟩ := encodes_decodeWord w
  cases hi : decodeWord w with
  | reserved v => exact .inl (congrArg Instr.reserved (by rwa [hi] at henc))
  | fpIllegal v => exact .inr (congrArg Instr.fpIllegal (by rwa [hi] at henc))
  | _ =>
    have hrow := encodeWord_not_illegal (i := decodeWord w) (by rw [hi]; rfl)
    rw [henc, h] at hrow
    cases hrow

/-- No reserved word is one of the unassigned floating-point words. -/
theorem not_reserved_and_fpIllegal {w : Word} (hr : inRows reservedRows w = true) : inRows fpIllegalRows w ≠ true :=
  fun hf => absurd (rowsMeet_of_inRows hr hf) (by decide)

theorem inRows_illegalRows (w : Word) : inRows illegalRows w = (inRows reservedRows w || inRows fpIllegalRows w) :=
  List.any_append

theorem decodeWord_of_reserved {w : Word} (h : inRows reservedRows w = true) : decodeWord w = .reserved w := by
  refine (decodeWord_of_illegal (by rw [inRows_illegalRows, h, Bool.true_or])).resolve_right fun hi => ?_
  obtain ⟨hwf, _⟩ := encodes_decodeWord w
  rw [hi] at hwf
  exact not_reserved_and_fpIllegal h hwf

theorem decodeWord_of_fpIllegal {w : Word} (h : inRows fpIllegalRows w = true) : decodeWord w = .fpIllegal w := by
  refine (decodeWord_of_illegal (by rw [inRows_illegalRows, h, Bool.or_true])).resolve_left fun hi => ?_
  obtain ⟨hwf, _⟩ := encodes_decodeWord w
  rw [hi] at hwf
  exact not_reserved_and_fpIllegal hwf h

/-- Format by format: the leading bits of the word lead down the decoder's tree to the arm of its instruction. -/
theorem decodeWord_encodeWord {i : Instr} (h : i.wellFormed = true) : decodeWord (encodeWord i) = i := by
  cases i with
  | clearCodes mask => exact decodeWord_clearCodes (by simpa [Instr.wellFormed] using h)
  | setCodes mask => exact decodeWord_setCodes (by simpa [Instr.wellFormed] using h)
  | reserved w => exact decodeWord_of_reserved h
  | fpIllegal w => exact decodeWord_of_fpIllegal h
  | jmp | swab | clr | clrb | com | comb | inc | incb | dec | decb | neg | negb | adc | adcb | sbc | sbcb | tst | tstb | ror
  | rorb | rol | rolb | asr | asrb | asl | aslb | mfpi | mtpi | sxt | mtps | mfpd | mtpd | mfps | ldfps | stfps | stst | clrf
  | tstf | absf | negf =>
    simp [encodeWord, decodeWord, decode00, decodeLow, decodeSingle, decode10, decodeSingleByte, decode17, decodeFpSingle]
  | mov | movb | cmp | cmpb | bit | bitb | bic | bicb | bis | bisb | add | sub => simp [encodeWord, decodeWord]
  | jsr => simp [encodeWord, decodeWord, decode00_jsr]
  | mul | div | ash | ashc | xor => simp [encodeWord, decodeWord, decode07]
  | br | bne | beq | bge | blt | bgt | ble | bpl | bmi | bhi | blos | bvc | bvs | bcc | bcs | emt | trap =>
    simp [encodeWord, decodeWord, decode00, decode10]
  | mulf | modf | addf | ldf | subf | cmpf | stf | divf | stexp | stcfi | stcfd | ldexp | ldcif | ldcdf =>
    simp [encodeWord, decodeWord, decode17]
  | rts | l2d | l3d =>
    simp [encodeWord, decodeWord, decode00, decodeLow, decodeRtsGroup, decode07, decodeCis]
  | mark => simp [encodeWord, decodeWord, decode00, decodeSingle]
  | sob => simp [encodeWord_sob, decodeWord, decode07]
  | _ => rfl

/-- The bytes of an instruction are those of its word, the low byte first (R102). -/
theorem decode_encodeBytes_append (i : Instr) (rest : List Byte) :
    decode (encodeBytes i ++ rest) = .ok (decodeWord (encodeWord i), rest) :=
  congrArg (fun w => Except.ok (decodeWord w, rest)) (Machine.wordOf_bytes (encodeWord i))

/-- Settles O1: the leading bits of each format lead the decoder to its instruction, whose fields it reads back; a reserved
word is told by the rows. -/
theorem decodeOfEncode : Obligations.DecodeOfEncode := by
  intro i rest h
  rw [decode_encodeBytes_append, decodeWord_encodeWord h]

end Sys2Proof

namespace Sys2Proof.Machine

/-! Operand fields: where each addressing mode finds its operand (spec/40_addressing_modes.md R240 to R262). -/

section Registers

variable {r : Reg} {s u : State} {a : Word}

/-- A register reads its cell; only R6 of mode 10 reads a free value (spec/10_state.md R21, R23). -/
theorem readReg_of_mode (h : r = .sp → s.mode ≠ .illegal) : readReg r s = .ok (regCell s.regs s.mode r) s := by
  cases r with
  | sp => exact readReg_sp rfl (h rfl)
  | _ => rfl

theorem readLocByte_reg (h : readReg r s = .ok a u) : readLocByte (.reg r) s = .ok (lowByte a) u :=
  bind_of_ok h

theorem writeLocByte_reg (b : Byte) (h : readReg r s = .ok a u) :
    writeLocByte (.reg r) b s = .ok false (u.withReg r (wordOf (highByte a) b)) := by
  have hw : writeRegByte r b s = .ok ⟨⟩ (u.withReg r (wordOf (highByte a) b)) := bind_of_ok h
  exact bind_of_ok hw

/-- The state after R6 has been decremented to an address that may be below the kernel stack limit
(spec/60_exceptions.md R715, D50). -/
def State.limitNoted (r : Reg) (a : Word) (s : State) : State :=
  if r = .sp ∧ s.mode = .kernel ∧ a.toNat < 0o400 then { s with pend := { s.pend with stkovf := true } } else s

/-- An increment answers what the register held (R245). -/
theorem increment_run (n : Word) (h : readReg r s = .ok a u) : increment r n s = .ok a (u.withReg r (a + n)) :=
  bind_of_ok h

/-- A decrement answers what the register holds after it, and notes the stack limit (R247). -/
theorem decrement_run (n : Word) (h : readReg r s = .ok a u) :
    decrement r n s = .ok (a - n) ((u.withReg r (a - n)).limitNoted r (a - n)) := by
  simp only [decrement, run_bind, h, writeReg_run, State.limitNoted]
  by_cases hr : r = .sp
  · simp only [hr, if_true, true_and, run_bind, noteStackLimit_run, run_pure]
  · simp only [hr, if_false, false_and, run_pure]

theorem indexed_run {q v : State} {x b : Word} (hx : fetchWord s = .ok x q) (hb : readReg r q = .ok b v) :
    indexed r s = .ok (b + x) v :=
  (bind_of_ok hx).trans (bind_of_ok hb)

/-- A step counts 2 for a byte through R6 or the PC, else the operand's size (R244). -/
theorem stepOf_eq (sz : Nat) (r : Reg) :
    stepOf sz r = BitVec.ofNat 16 (if sz = 1 ∧ (r = .sp ∨ r = .pc) then 2 else sz) := by
  rw [stepOf, apply_ite (BitVec.ofNat 16)]
  rfl

end Registers

section Sources

variable {s t u : State} {o : Operand} {r : Reg} {ea v : Word} {b : Byte}

/-- A source register is not read yet (R262). -/
theorem sourceWord_of_reg (h : evalField 2 o s = .ok (.reg r) t) : sourceWord o s = .ok (.reg r) t :=
  bind_of_ok h

theorem sourceByte_of_reg (h : evalField 1 o s = .ok (.reg r) t) : sourceByte o s = .ok (.reg r) t :=
  bind_of_ok h

/-- A source in memory is read at once (R262). -/
theorem sourceWord_of_mem (h : evalField 2 o s = .ok (.mem ea) t) (hr : readWord ea t = .ok v u) :
    sourceWord o s = .ok (.value v) u :=
  (bind_of_ok h).trans (bind_of_ok hr)

theorem sourceByte_of_mem (h : evalField 1 o s = .ok (.mem ea) t) (hr : readByte ea t = .ok b u) :
    sourceByte o s = .ok (.value b) u :=
  (bind_of_ok h).trans (bind_of_ok hr)

end Sources

/-- Settles O9: an operation on a register is its read and its write, and an addressing mode is its own operation, in the
deferred modes with the read of the pointer after it. -/
theorem operandForms : Obligations.OperandForms := by
  refine ⟨fun s r x => ⟨readReg_of_mode, rfl, regCell_withReg_same _ _ r x, sameRegsBut_withReg _ _ r x, rfl⟩,
    fun s u r a b h => ⟨h, readLocByte_reg h, writeLocByte_reg b h⟩, fun s ea w b => ⟨rfl, rfl, rfl, rfl⟩,
    fun s t o l => ⟨fun he => ⟨fun v u hr => (bind_of_ok he).trans hr, ?_⟩, fun he => ?_⟩,
    fun sz r s u a h => ?_⟩
  · cases l with
    | reg r => exact ⟨.reg r, sourceWord_of_reg he, fun _ => rfl⟩
    | mem ea => exact fun v u hr => ⟨.value v, sourceWord_of_mem he hr, fun _ => rfl⟩
  · cases l with
    | reg r => exact ⟨.reg r, sourceByte_of_reg he, fun _ => rfl⟩
    | mem ea => exact fun v u hr => ⟨.value v, sourceByte_of_mem he hr, fun _ => rfl⟩
  · intro step noted
    have hstep : stepOf sz r = step := stepOf_eq sz r
    refine ⟨rfl, bind_of_ok h, ?_, ?_, fun p t hp => ?_, fun p t hp => ?_, fun q v x b hx hb => ⟨?_, fun p t hp => ?_⟩⟩
    · rw [← hstep]
      exact bind_of_ok (increment_run _ h)
    · rw [← hstep]
      exact bind_of_ok (decrement_run _ h)
    · exact (bind_of_ok (increment_run 2 h)).trans (bind_of_ok hp)
    · exact (bind_of_ok (decrement_run 2 h)).trans (bind_of_ok hp)
    · exact bind_of_ok (indexed_run hx hb)
    · exact (bind_of_ok (indexed_run hx hb)).trans (bind_of_ok hp)

end Sys2Proof.Machine

namespace Sys2Proof.Machine

variable {α β : Type}

/-! What evaluating and reading an operand leaves as it was (spec/40_addressing_modes.md R240, R241). -/

/-! The receivers that a read empties (spec/10_state.md R63, R64). -/

/-- A serial-line unit whose RBUF has been read; its transmitter's request needs the flag and the enable (R750). -/
def Slu.emptied (x : Slu) : Slu :=
  { x with rxDone := false, rxReq := false, txReq := x.txReq && x.txRdy && x.txIE }

/-- A channel whose pair of enable and flag stays as it was keeps a request that the pair justifies (R750). -/
theorem channel_unchanged (both held : Bool) : channel both both held = (held && both) := by
  cases both <;> cases held <;> rfl

theorem readRbuf_eq_emptied (x : Slu) : x.readRbuf = x.emptied := by
  have hsettled : x.readRbuf
      = { x with rxDone := false, rxReq := false, txReq := channel (x.txRdy && x.txIE) (x.txRdy && x.txIE) x.txReq } := rfl
  rw [hsettled, channel_unchanged, ← Bool.and_assoc]
  rfl

theorem emptied_emptied (x : Slu) : x.emptied.emptied = x.emptied := by
  have hreq (a b c : Bool) : (a && b && c && b && c) = (a && b && c) := by
    cases a <;> cases b <;> cases c <;> rfl
  simp only [Slu.emptied, hreq]

/-- Each serial-line unit is as it was, or has been emptied. -/
def ReceiversEmptied (s t : State) : Prop := ∀ u : Unit2, t.slu u = s.slu u ∨ t.slu u = (s.slu u).emptied

theorem receiversEmptied_of_slu_eq {s t : State} (h1 : t.slu1 = s.slu1) (h2 : t.slu2 = s.slu2) : ReceiversEmptied s t := by
  rintro (_ | _)
  · exact .inl h1
  · exact .inl h2

theorem ReceiversEmptied.trans {s t u : State} (h : ReceiversEmptied s t) (h' : ReceiversEmptied t u) :
    ReceiversEmptied s u := by
  intro x
  rcases h' x with hu | hu <;> rcases h x with ht | ht <;> rw [hu, ht]
  · exact .inl rfl
  · exact .inr rfl
  · exact .inr rfl
  · exact .inr (emptied_emptied _)

theorem receiversEmptied_readIo {r : IoReg} {s t : State} {w : Word} (h : readIo r s = .ok w t) : ReceiversEmptied s t := by
  cases r with
  | rbuf u =>
    cases h
    intro v
    rw [slu_withSlu]
    split
    · rename_i hv
      exact .inr (hv ▸ readRbuf_eq_emptied _)
    · exact .inl rfl
  | _ =>
    cases h
    exact receiversEmptied_of_slu_eq rfl rfl

theorem receiversEmptied_readCycle {pa : PAddr} {s t : State} {w : Word} (h : readCycle pa s = .ok w t) :
    ReceiversEmptied s t := by
  have hsame := (readCycle_frame h).2
  simp only [readCycle, run_bind, run_get] at h
  cases hio : isIoPage pa with
  | true =>
    simp only [hio, if_true] at h
    cases hd : ioDecode s.cfg pa with
    | none => simp [hd] at h
    | some r =>
      simp only [hd] at h
      exact receiversEmptied_readIo h
  | false =>
    rw [hsame hio]
    exact receiversEmptied_of_slu_eq rfl rfl

/-- What a read does: nothing but what `readOnly` allows, and of a serial-line unit only its receiver emptied. -/
def ReadsOnly (s t : State) : Prop := readOnly s t ∧ ReceiversEmptied s t

theorem readsOnly_busRead {pa : PAddr} {s t : State} {w : Word} (h : busRead pa s = .ok w t) : ReadsOnly s t := by
  obtain ⟨hcycle, hro⟩ := busRead_ok h
  exact ⟨hro, (receiversEmptied_of_slu_eq (granted_slu1 s) (granted_slu2 s)).trans (receiversEmptied_readCycle hcycle)⟩

theorem readsOnly_readWord {va : Word} {s t : State} {w : Word} (h : readWord va s = .ok w t) : ReadsOnly s t := by
  obtain ⟨m, u, hm, hb⟩ := bind_ok_iff.mp (show readWordIn s.mode va s = .ok w t from h)
  obtain rfl := (translate_ok hm).1
  exact readsOnly_busRead hb

theorem readsOnly_readByte {va : Word} {s t : State} {b : Byte} (h : readByte va s = .ok b t) : ReadsOnly s t := by
  obtain ⟨m, u, hm, hb⟩ := bind_ok_iff.mp (show readByteIn s.mode va s = .ok b t from h)
  obtain rfl := (translate_ok hm).1
  obtain ⟨w, v, hw, hv⟩ := bind_ok_iff.mp hb
  cases hv
  exact readsOnly_busRead hw

theorem readsOnly_readReg {r : Reg} {s t : State} {w : Word} (h : readReg r s = .ok w t) : ReadsOnly s t := by
  rw [readReg_frame h]
  exact ⟨readOnly_free s _, receiversEmptied_of_slu_eq rfl rfl⟩

theorem readsOnly_readLoc {l : Loc} {s t : State} {w : Word} (h : readLoc l s = .ok w t) : ReadsOnly s t := by
  cases l with
  | reg r => exact readsOnly_readReg h
  | mem ea => exact readsOnly_readWord h

theorem readsOnly_readLocByte {l : Loc} {s t : State} {b : Byte} (h : readLocByte l s = .ok b t) : ReadsOnly s t := by
  cases l with
  | reg r =>
    obtain ⟨w, u, hu, hb⟩ := bind_ok_iff.mp h
    cases hb
    exact readsOnly_readReg hu
  | mem ea => exact readsOnly_readByte h

/-! Registers an operand field may step. -/

theorem sameRegsBut_refl (l : List Reg) (m : Mode) (g : Regs) : sameRegsBut l m g g := ⟨fun _ _ => rfl, fun _ _ => rfl⟩

theorem sameRegsBut_trans {l : List Reg} {m : Mode} {g g' g'' : Regs} (h : sameRegsBut l m g g')
    (h' : sameRegsBut l m g' g'') : sameRegsBut l m g g'' :=
  ⟨fun r hr => (h'.1 r hr).trans (h.1 r hr), fun n hn => (h'.2 n hn).trans (h.2 n hn)⟩

theorem sameRegsBut_mono {l l' : List Reg} {m : Mode} {g g' : Regs} (hl : l ⊆ l') (h : sameRegsBut l m g g') :
    sameRegsBut l' m g g' :=
  ⟨fun r hr => h.1 r fun hmem => hr (hl hmem), h.2⟩

/-- Between `s` and `t` an operand field that names `r` has been evaluated, or part of it. -/
structure FieldEvaluated (r : Reg) (s t : State) : Prop where
  only : OperandOnly s t
  receivers : ReceiversEmptied s t
  regs : sameRegsBut [r, .pc] s.mode s.regs t.regs
  stkovf : r ≠ .sp → t.pend.stkovf = s.pend.stkovf

theorem fieldEvaluated_refl (r : Reg) (s : State) : FieldEvaluated r s s where
  only := operandOnly_refl s
  receivers := receiversEmptied_of_slu_eq rfl rfl
  regs := sameRegsBut_refl _ _ _
  stkovf _ := rfl

theorem FieldEvaluated.trans {r : Reg} {s t u : State} (h : FieldEvaluated r s t) (h' : FieldEvaluated r t u) :
    FieldEvaluated r s u where
  only := operandOnly_trans h.only h'.only
  receivers := h.receivers.trans h'.receivers
  regs := by
    have hmode : t.mode = s.mode := congrArg psMode (operandOnly_fields h.only).1
    exact sameRegsBut_trans h.regs (hmode ▸ h'.regs)
  stkovf hr := (h'.stkovf hr).trans (h.stkovf hr)

theorem fieldEvaluated_of_readsOnly (r : Reg) {s t : State} (h : ReadsOnly s t) : FieldEvaluated r s t := by
  obtain ⟨hro, hreceivers⟩ := h
  obtain ⟨_, hregs, _, _, _, _, _, hpend, _, _, _⟩ := readOnly_fields hro
  exact
    { only := operandOnly_of_readOnly hro
      receivers := hreceivers
      regs := hregs ▸ sameRegsBut_refl _ _ _
      stkovf := fun _ => by rw [hpend] }

/-- The register an operand field names, or the PC, is stepped. -/
theorem fieldEvaluated_withReg {r q : Reg} (hq : q ∈ [r, .pc]) (s : State) (w : Word) :
    FieldEvaluated r s (s.withReg q w) where
  only := ⟨0, rfl⟩
  receivers := receiversEmptied_of_slu_eq rfl rfl
  regs := sameRegsBut_mono (fun _ hp => List.mem_singleton.mp hp ▸ hq) (sameRegsBut_withReg _ _ q w)
  stkovf _ := rfl

/-! The evaluation step by step. -/

/-- A computation that answers is part of the evaluation of a field that names `r`. -/
def EvaluatesField (r : Reg) (x : M α) : Prop := ∀ s a t, x s = .ok a t → FieldEvaluated r s t

theorem evaluatesField_pure (r : Reg) (a : α) : EvaluatesField r (pure a : M α) := by
  rintro s _ _ ⟨⟩
  exact fieldEvaluated_refl r s

theorem EvaluatesField.bind {r : Reg} {x : M α} {f : α → M β} (hx : EvaluatesField r x)
    (hf : ∀ a, EvaluatesField r (f a)) : EvaluatesField r (x >>= f) := by
  intro s b t h
  obtain ⟨a, u, hu, ht⟩ := bind_ok_iff.mp h
  exact (hx s a u hu).trans (hf a u b t ht)

theorem evaluatesField_readReg (r q : Reg) : EvaluatesField r (readReg q) := fun _ _ _ h =>
  fieldEvaluated_of_readsOnly r (readsOnly_readReg h)

theorem evaluatesField_writeReg (r : Reg) (w : Word) : EvaluatesField r (writeReg r w) := by
  rintro s _ _ ⟨⟩
  exact fieldEvaluated_withReg List.mem_cons_self s w

theorem evaluatesField_readWord (r : Reg) (va : Word) : EvaluatesField r (readWord va) := fun _ _ _ h =>
  fieldEvaluated_of_readsOnly r (readsOnly_readWord h)

/-- A fetch steps the PC, then reads. -/
theorem evaluatesField_fetchWord (r : Reg) : EvaluatesField r fetchWord := by
  intro s w t h
  rw [fetchWord_run] at h
  cases hm : translate s.mode s.regs.pc false s with
  | ok m u =>
    rw [hm] at h
    have hstep : FieldEvaluated r s (s.withReg .pc (s.regs.pc + 2)) := fieldEvaluated_withReg (by simp) s _
    exact hstep.trans (fieldEvaluated_of_readsOnly r (readsOnly_busRead h))
  | error e u =>
    rw [hm] at h
    cases h

/-- Only a decrement of R6 notes the stack limit. -/
theorem evaluatesField_noteStackLimit (a : Word) : EvaluatesField .sp (noteStackLimit a) := by
  intro s _ t h
  have honly := finds_noteStackLimit a s _ t h
  rw [noteStackLimit_run] at h
  cases h
  refine { only := honly, receivers := receiversEmptied_of_slu_eq ?_ ?_, regs := ?_, stkovf := fun hsp => absurd rfl hsp }
  · split <;> rfl
  · split <;> rfl
  · split <;> exact sameRegsBut_refl _ _ _

theorem evaluatesField_increment (r : Reg) (n : Word) : EvaluatesField r (increment r n) :=
  (evaluatesField_readReg r r).bind fun a => (evaluatesField_writeReg r (a + n)).bind fun _ => evaluatesField_pure r a

theorem evaluatesField_decrement (r : Reg) (n : Word) : EvaluatesField r (decrement r n) := by
  refine (evaluatesField_readReg r r).bind fun a => (evaluatesField_writeReg r (a - n)).bind fun _ => ?_
  split
  · rename_i hsp
    subst hsp
    exact (evaluatesField_noteStackLimit _).bind fun _ => evaluatesField_pure _ _
  · exact evaluatesField_pure _ _

theorem evaluatesField_indexed (r : Reg) : EvaluatesField r (indexed r) :=
  (evaluatesField_fetchWord r).bind fun _ => (evaluatesField_readReg r r).bind fun _ => evaluatesField_pure r _

theorem evaluatesField_evalField (sz : Nat) (o : Operand) : EvaluatesField o.reg (evalField sz o) := by
  obtain ⟨mode, r⟩ := o
  have address (a : Word) : EvaluatesField r (pure (.mem a) : M Loc) := evaluatesField_pure r _
  have pointer (a : Word) : EvaluatesField r (do return .mem (← readWord a) : M Loc) :=
    (evaluatesField_readWord r a).bind address
  cases mode with
  | register => exact evaluatesField_pure r _
  | registerDeferred => exact (evaluatesField_readReg r r).bind address
  | autoinc => exact (evaluatesField_increment r _).bind fun _ => address _
  | autoincDeferred => exact (evaluatesField_increment r 2).bind pointer
  | autodec => exact (evaluatesField_decrement r _).bind address
  | autodecDeferred => exact (evaluatesField_decrement r 2).bind pointer
  | index => exact (evaluatesField_indexed r).bind address
  | indexDeferred => exact (evaluatesField_indexed r).bind pointer

/-- The modes that only name a register, or the address in it, step nothing and make no reference. -/
theorem evalField_of_plain_mode {sz : Nat} {o : Operand} {s t : State} {l : Loc}
    (hm : o.mode = .register ∨ o.mode = .registerDeferred) (h : evalField sz o s = .ok l t) :
    t = { s with free := t.free } := by
  obtain ⟨mode, r⟩ := o
  rcases hm with hm | hm <;> cases hm
  · cases h
    rfl
  · obtain ⟨a, u, hu, hl⟩ := bind_ok_iff.mp h
    cases hl
    exact readReg_frame hu

/-- Where only operands have been found, everything else is as it was. -/
theorem operandOnly_frame {s t : State} (h : OperandOnly s t) :
    t.mmu = s.mmu ∧ t.board = s.board ∧ t.cfg = s.cfg ∧ t.run = s.run ∧ t.odt = s.odt ∧ t.lines = s.lines
      ∧ t.inputs = s.inputs ∧ t.pend = { s.pend with stkovf := t.pend.stkovf } := by
  obtain ⟨n, hn⟩ := h
  rw [hn, grants_eq]
  exact ⟨rfl, rfl, rfl, rfl, rfl, rfl, rfl, rfl⟩

/-- Settles O10: the evaluation step by step keeps what `FieldEvaluated` names, and a read what `ReadsOnly` does. -/
theorem operandFrame : Obligations.OperandFrame := by
  intro sz o s t l h emptied
  obtain ⟨honly, hreceivers, hregs, hstkovf⟩ := evaluatesField_evalField sz o s l t h
  obtain ⟨hps, hfpp⟩ := operandOnly_fields honly
  obtain ⟨hmmu, hboard, hcfg, hrun, hodt, hlines, hinputs, hpend⟩ := operandOnly_frame honly
  obtain ⟨n, hn⟩ := honly
  have hmem : t.mem = (s.grants n).mem := by rw [hn]
  have hbus : t.bus = (s.grants n).bus := by rw [hn]
  refine ⟨⟨n, hmem, hbus⟩, fun hq => by rw [hmem, grants_quiet n hq], hps, hmmu, hfpp, hboard, hcfg, hrun, hodt, hlines,
    hinputs, hreceivers, hpend, hstkovf, hregs, fun hm => ?_, fun w u hr => readsOnly_readLoc hr,
    fun b u hr => readsOnly_readLocByte hr⟩
  rw [evalField_of_plain_mode hm h]
  exact ⟨rfl, rfl, rfl⟩

end Sys2Proof.Machine

namespace Sys2Proof.Machine

variable {α : Type}

/-! Results and condition codes of two operands (spec/42_double_operand.md R331 to R345), as the integers the operands stand
for. -/

section Codes

variable {w : Nat}

/-- A signed result fits the operand's width (R333, R337, R338). -/
def fitsSigned (w : Nat) (e : Int) : Bool := decide (-2 ^ (w - 1) ≤ e ∧ e < 2 ^ (w - 1))

theorem fitsSigned_word (e : Int) : fitsSigned 16 e = decide (-0o100000 ≤ e ∧ e ≤ 0o77777) :=
  decide_eq_decide.mpr (by omega)

theorem fitsSigned_byte (e : Int) : fitsSigned 8 e = decide (-0o200 ≤ e ∧ e ≤ 0o177) :=
  decide_eq_decide.mpr (by omega)

theorem saddOverflow_eq_not_fitsSigned (x y : BitVec w) : x.saddOverflow y = !fitsSigned w (x.toInt + y.toInt) := by
  rw [BitVec.saddOverflow, fitsSigned, ← Bool.decide_or, ← decide_not]
  exact decide_eq_decide.mpr (by omega)

theorem ssubOverflow_eq_not_fitsSigned (x y : BitVec w) : x.ssubOverflow y = !fitsSigned w (x.toInt - y.toInt) := by
  rw [BitVec.ssubOverflow, fitsSigned, ← Bool.decide_or, ← decide_not]
  exact decide_eq_decide.mpr (by omega)

/-- V of a sum, by the signs of its operands (R337). -/
theorem addSigns_eq_not_fitsSigned (x y : BitVec w) :
    (x.msb == y.msb && (x + y).msb != x.msb) = !fitsSigned w (x.toInt + y.toInt) := by
  rw [← saddOverflow_eq_not_fitsSigned, BitVec.saddOverflow_eq]
  rfl

/-- V of a difference, by the signs of its operands (R333, R338). -/
theorem subSigns_eq_not_fitsSigned (x y : BitVec w) :
    (x.msb != y.msb && y.msb == (x - y).msb) = !fitsSigned w (x.toInt - y.toInt) := by
  rw [← ssubOverflow_eq_not_fitsSigned, BitVec.ssubOverflow_eq]
  cases x.msb <;> cases y.msb <;> cases (x - y).msb <;> rfl

theorem aluCmp_eq (s d : BitVec w) :
    aluCmp s d = codesOf (s - d) (!fitsSigned w (s.toInt - d.toInt)) (decide (s.toNat < d.toNat)) :=
  congrArg (codesOf (s - d) · _) (subSigns_eq_not_fitsSigned s d)

theorem aluBic_eq (k : Codes) (s d : BitVec w) : aluBic k s d = (d &&& ~~~s, codesOf (d &&& ~~~s) false k.c) := by
  rw [BitVec.and_comm d]
  rfl

theorem aluBis_eq (k : Codes) (s d : BitVec w) : aluBis k s d = (d ||| s, codesOf (d ||| s) false k.c) := by
  rw [BitVec.or_comm d]
  rfl

theorem aluAdd_eq (s d : BitVec w) :
    aluAdd s d
      = (d + s, codesOf (d + s) (!fitsSigned w (d.toInt + s.toInt)) (decide (2 ^ w ≤ d.toNat + s.toNat))) := by
  rw [aluAdd, addSigns_eq_not_fitsSigned, BitVec.add_comm d, Int.add_comm d.toInt, Nat.add_comm d.toNat]

theorem aluSub_eq (s d : BitVec w) :
    aluSub s d = (d - s, codesOf (d - s) (!fitsSigned w (d.toInt - s.toInt)) (decide (d.toNat < s.toNat))) := by
  rw [← subSigns_eq_not_fitsSigned d s, bne_comm]
  rfl

end Codes

/-! What finding and reading operands leaves of the PS. -/

theorem finds_readByte (va : Word) : Finds (readByte va) := fun _ _ _ h => operandOnly_of_readOnly (readByte_ok h)

theorem finds_readLoc (l : Loc) : Finds (readLoc l) := by
  cases l with
  | reg r => exact finds_readReg r
  | mem ea => exact finds_readWord ea

theorem finds_readLocByte (l : Loc) : Finds (readLocByte l) := by
  cases l with
  | reg r => exact (finds_readReg r).bind fun _ => finds_pure _
  | mem ea => exact finds_readByte ea

theorem finds_sourceWord (o : Operand) : Finds (sourceWord o) := by
  refine (finds_evalField 2 o).bind fun l => ?_
  cases l with
  | reg r => exact finds_pure _
  | mem ea => exact (finds_readWord ea).bind fun _ => finds_pure _

theorem finds_sourceByte (o : Operand) : Finds (sourceByte o) := by
  refine (finds_evalField 1 o).bind fun l => ?_
  cases l with
  | reg r => exact finds_pure _
  | mem ea => exact (finds_readByte ea).bind fun _ => finds_pure _

theorem finds_source_word (x : Source Word) : Finds x.word := by
  cases x with
  | reg r => exact finds_readReg r
  | value v => exact finds_pure v

theorem finds_source_byte (x : Source Byte) : Finds x.byte := by
  cases x with
  | reg r => exact (finds_readReg r).bind fun _ => finds_pure _
  | value v => exact finds_pure v

theorem Finds.ps_eq {x : M α} (hx : Finds x) {s t : State} {a : α} (h : x s = .ok a t) : t.ps = s.ps :=
  (operandOnly_fields (hx s a t h)).1

/-! The ends of an instruction that has found its operands. -/

theorem storeWord_of_writeLoc {l : Loc} {v : Word} {k : Codes} {s t : State} {p : Bool} (h : writeLoc l v s = .ok p t) :
    storeWord l (v, k) s = .ok ⟨⟩ (settled p k t) :=
  (bind_of_ok h).trans (setCodes_run p k t)

theorem storeByte_of_writeLocByte {l : Loc} {b : Byte} {k : Codes} {s t : State} {p : Bool}
    (h : writeLocByte l b s = .ok p t) : storeByte l (b, k) s = .ok ⟨⟩ (settled p k t) :=
  (bind_of_ok h).trans (setCodes_run p k t)

theorem modifyWord_of_rewritesWord {l : Loc} {f : Codes → Word → AluResult 16} {s t : State} {d r : Word} {k : Codes}
    {p : Bool} (hf : f (psCodes s.ps) d = (r, k)) (h : rewritesWord l s d r p t) :
    modifyWord l f s = .ok ⟨⟩ (settled p k t) := by
  have hrun := modifyWord_run (f := f) (s := s) (d := d) (l := l) (p := p) (t := t)
  rw [hf] at hrun
  exact hrun h

/-- Rewriting a byte operand: what `rewritesByte` says, with the codes computed from the codes before. -/
theorem modifyByte_of_rewritesByte {l : Loc} {f : Codes → Byte → AluResult 8} {s t : State} {d r : Byte} {k : Codes}
    {p : Bool} (hf : f (psCodes s.ps) d = (r, k)) (h : rewritesByte l s d r p t) :
    modifyByte l f s = .ok ⟨⟩ (settled p k t) := by
  cases l with
  | reg q =>
    obtain ⟨w, u, hr, rfl, hw, rfl⟩ := h
    simp only [modifyByte, run_bind, codesNow_run, hr, hf, hw, setCodesOnly_run]
    rfl
  | mem ea =>
    obtain ⟨m, w, g, u, hm, hg, hr, rfl, hw⟩ := h
    obtain rfl := (busGrant_ok hg).1
    simp only [modifyByte, run_bind, run_get, hm, hg, codesNow_run, granted_ps, hr, hf, hw, setCodes_run]

/-- MOVB to a register fills it with the byte and its sign (R332). -/
theorem moveByte_register {dst : Operand} {l : Loc} {b : Byte} {s : State} (h : dst.mode = .register) :
    moveByte dst b l s
      = .ok ⟨⟩ (settled false (moveCodes (psCodes s.ps) b) (s.withReg dst.reg (BitVec.ofInt 16 b.toInt))) := by
  simp only [moveByte, run_bind, codesNow_run, if_pos h]
  rfl

theorem moveByte_memory {dst : Operand} {l : Loc} {b : Byte} {s t : State} {p : Bool} (h : dst.mode ≠ .register)
    (hw : writeLocByte l b s = .ok p t) :
    moveByte dst b l s = .ok ⟨⟩ (settled p (moveCodes (psCodes s.ps) b) t) := by
  simp only [moveByte, run_bind, codesNow_run, if_neg h]
  exact storeByte_of_writeLocByte hw

section Word

variable {s s1 s2 s3 t : State} {src dst : Operand} {x : Source Word} {l : Loc} {v d : Word} {p : Bool}

/-- A word instruction that reads its destination and keeps only the codes (R333, R334). -/
theorem compareWord_completes {f : Codes → Word → Word → Codes} {k : Codes} (hx : sourceWord src s = .ok x s1)
    (he : evalField 2 dst s1 = .ok l s2) (hv : x.word s2 = .ok v s3) (h : readLoc l s3 = .ok d t)
    (hf : f (psCodes t.ps) v d = k) : runInstr (compareWord src dst f) s = completed (settled false k t) := by
  refine runInstr_ok ((doubleWord_run hx he hv).trans ((bind_of_ok h).trans ((bind_of_ok (codesNow_run t)).trans ?_)))
  rw [hf]
  exact setCodes_run false k t

/-- A word instruction that rewrites its destination (R335 to R338). -/
theorem combineWord_completes {f : Word → Codes → Word → AluResult 16} {r : Word} {k : Codes}
    (hx : sourceWord src s = .ok x s1) (he : evalField 2 dst s1 = .ok l s2) (hv : x.word s2 = .ok v s3)
    (hf : f v (psCodes s3.ps) d = (r, k)) (h : rewritesWord l s3 d r p t) :
    runInstr (doubleWord src dst fun v l => modifyWord l (f v)) s = completed (settled p k t) :=
  runInstr_ok ((doubleWord_run hx he hv).trans (modifyWord_of_rewritesWord hf h))

end Word

section Byte

variable {s s1 s2 s3 t : State} {src dst : Operand} {x : Source Byte} {l : Loc} {v d : Byte} {p : Bool}

theorem compareByte_completes {f : Codes → Byte → Byte → Codes} {k : Codes} (hx : sourceByte src s = .ok x s1)
    (he : evalField 1 dst s1 = .ok l s2) (hv : x.byte s2 = .ok v s3) (h : readLocByte l s3 = .ok d t)
    (hf : f (psCodes t.ps) v d = k) : runInstr (compareByte src dst f) s = completed (settled false k t) := by
  refine runInstr_ok ((doubleByte_run hx he hv).trans ((bind_of_ok h).trans ((bind_of_ok (codesNow_run t)).trans ?_)))
  rw [hf]
  exact setCodes_run false k t

theorem combineByte_completes {f : Byte → Codes → Byte → AluResult 8} {r : Byte} {k : Codes}
    (hx : sourceByte src s = .ok x s1) (he : evalField 1 dst s1 = .ok l s2) (hv : x.byte s2 = .ok v s3)
    (hf : f v (psCodes s3.ps) d = (r, k)) (h : rewritesByte l s3 d r p t) :
    runInstr (doubleByte src dst fun v l => modifyByte l (f v)) s = completed (settled p k t) :=
  runInstr_ok ((doubleByte_run hx he hv).trans (modifyByte_of_rewritesByte hf h))

end Byte

theorem carry_of_ps {s t : State} (h : t.ps = s.ps) : (psCodes t.ps).c = s.ps.getLsbD 0 := congrArg psC h

/-- Settles O27: each instruction is run up to its end, whose computation is the one of the statement. -/
theorem doubleOperandWord : Obligations.DoubleOperandWord := by
  refine ⟨fun s s1 s2 r o l x d p t he hr hw => ?_, fun s s1 s2 s3 src dst x l v hx he hv => ?_⟩
  · have hps : s2.ps = s.ps := ((finds_readReg r).ps_eq hr).trans ((finds_evalField 2 o).ps_eq he)
    rw [← carry_of_ps hps]
    exact runInstr_ok ((bind_of_ok he).trans ((bind_of_ok hr).trans (modifyWord_of_rewritesWord rfl hw)))
  · have hps : s3.ps = s.ps := ((finds_source_word x).ps_eq hv).trans
      (((finds_evalField 2 dst).ps_eq he).trans ((finds_sourceWord src).ps_eq hx))
    intro c nz fits rewrites reads
    have hc : (psCodes s3.ps).c = c := carry_of_ps hps
    have hcRead {d : Word} {t : State} (h : readLoc l s3 = .ok d t) : (psCodes t.ps).c = c :=
      carry_of_ps (((finds_readLoc l).ps_eq h).trans hps)
    have hfits (e : Int) : fitsSigned 16 e = fits e := fitsSigned_word e
    have hmoved {r : Word} {t : State} (h : (psCodes t.ps).c = c) : moveCodes (psCodes t.ps) r = nz r false c := by
      rw [moveCodes, h]
      rfl
    refine ⟨fun p t h => ?_, fun d t h => ?_, fun d t h => ?_, fun d p t h => ?_, fun d p t h => ?_, fun d p t h => ?_,
      fun d p t h => ?_⟩
    · rw [← hmoved hc]
      exact runInstr_ok ((doubleWord_run hx he hv).trans ((bind_of_ok (codesNow_run s3)).trans (storeWord_of_writeLoc h)))
    · exact compareWord_completes hx he hv h (by rw [aluCmp_eq, hfits]; rfl)
    · exact compareWord_completes hx he hv h (hmoved (hcRead h))
    · exact combineWord_completes hx he hv (by rw [aluBic_eq, hc]; rfl) h
    · exact combineWord_completes hx he hv (by rw [aluBis_eq, hc]; rfl) h
    · exact combineWord_completes hx he hv (by rw [aluAdd_eq, hfits]; rfl) h
    · exact combineWord_completes hx he hv (by rw [aluSub_eq, hfits]; rfl) h

/-- Settles O28: as for words; MOVB to a register ends apart from MOVB to memory. -/
theorem doubleOperandByte : Obligations.DoubleOperandByte := by
  intro s s1 s2 s3 src dst x l v hx he hv c nz fits rewrites reads
  have hps : s3.ps = s.ps := ((finds_source_byte x).ps_eq hv).trans
    (((finds_evalField 1 dst).ps_eq he).trans ((finds_sourceByte src).ps_eq hx))
  have hc : (psCodes s3.ps).c = c := carry_of_ps hps
  have hcRead {d : Byte} {t : State} (h : readLocByte l s3 = .ok d t) : (psCodes t.ps).c = c :=
    carry_of_ps (((finds_readLocByte l).ps_eq h).trans hps)
  have hfits (e : Int) : fitsSigned 8 e = fits e := fitsSigned_byte e
  have hmoved {r : Byte} {t : State} (h : (psCodes t.ps).c = c) : moveCodes (psCodes t.ps) r = nz r false c := by
    rw [moveCodes, h]
    rfl
  refine ⟨fun hm => ?_, fun hm p t h => ?_, fun d t h => ?_, fun d t h => ?_, fun d p t h => ?_, fun d p t h => ?_⟩
  · rw [← hmoved hc]
    exact runInstr_ok ((doubleByte_run hx he hv).trans (moveByte_register hm))
  · rw [← hmoved hc]
    exact runInstr_ok ((doubleByte_run hx he hv).trans (moveByte_memory hm h))
  · exact compareByte_completes hx he hv h (by rw [aluCmp_eq, hfits]; rfl)
  · exact compareByte_completes hx he hv h (hmoved (hcRead h))
  · exact combineByte_completes hx he hv (by rw [aluBic_eq, hc]; rfl) h
  · exact combineByte_completes hx he hv (by rw [aluBis_eq, hc]; rfl) h

end Sys2Proof.Machine

namespace Sys2Proof.Machine

/-! Results and condition codes of one operand (spec/41_single_operand.md R284 to R304), in the forms the rules give them. -/

section Results

variable {w : Nat}

theorem carryOf_eq_setWidth (c : Bool) : (carryOf c : BitVec w) = (BitVec.ofBool c).setWidth w := by
  cases c
  · exact (BitVec.setWidth_zero w 1).symm
  · exact BitVec.eq_of_toNat_eq (by simp [carryOf])

/-- NEG: the one word that is its own negative without being 0 is the most negative number (R284). -/
theorem aluNeg_eq (d : BitVec w) : aluNeg d = (0 - d, codesOf (0 - d) (d == BitVec.intMin w) (d != 0)) := by
  have hmin : (-d == BitVec.intMin w) = (d == BitVec.intMin w) := by
    rw [Bool.eq_iff_iff, beq_iff_eq, beq_iff_eq, BitVec.neg_eq_intMin]
  have hzero : (-d != 0) = (d != 0) := by
    rw [Bool.eq_iff_iff, bne_iff_ne, bne_iff_ne, Ne, Ne, neg_eq_zero]
  rw [aluNeg, hmin, hzero, ← zero_sub]

theorem aluAdc_eq (k : Codes) (d : BitVec w) :
    aluAdc k d = (d + (BitVec.ofBool k.c).setWidth w,
      codesOf (d + (BitVec.ofBool k.c).setWidth w) (d == BitVec.intMax w && k.c) (d == BitVec.allOnes w && k.c)) := by
  rw [← carryOf_eq_setWidth]
  rfl

theorem aluSbc_eq (k : Codes) (d : BitVec w) :
    aluSbc k d = (d - (BitVec.ofBool k.c).setWidth w,
      codesOf (d - (BitVec.ofBool k.c).setWidth w) (d == BitVec.intMin w && k.c) (d == 0 && k.c)) := by
  rw [← carryOf_eq_setWidth]
  rfl

/-- ROR: the carry comes in above the bits that move down (R290). -/
theorem ror_eq_append (c : Bool) (d : BitVec (1 + w)) :
    (d >>> 1) ||| (carryOf c <<< (1 + w - 1)) = BitVec.ofBool c ++ d.extractLsb' 1 w := by
  ext i hi
  rw [carryOf_eq_setWidth, BitVec.getElem_append]
  by_cases hmoved : i < w
  · simp [hmoved]
  · obtain rfl : i = w := by omega
    simp [Nat.add_comm 1 i]

/-- ROL: the carry comes in below the bits that move up (R291). -/
theorem rol_eq_append (c : Bool) (d : BitVec (w + 1)) :
    (d <<< 1) ||| carryOf c = d.extractLsb' 0 w ++ BitVec.ofBool c := by
  ext i hi
  rw [carryOf_eq_setWidth, BitVec.getElem_append]
  cases i with
  | zero => simp
  | succ j => simp [← BitVec.getLsbD_eq_getElem]

/-- ASR: the sign comes in above the bits that move down (R292). -/
theorem asr_eq_sshiftRight (d : BitVec w) : (d >>> 1) ||| (d &&& BitVec.intMin w) = d.sshiftRight 1 := by
  ext i hi
  have hsign : (BitVec.intMin w)[i] = decide (i + 1 = w) := BitVec.getLsbD_intMin w
  rw [BitVec.getElem_sshiftRight, BitVec.getElem_or, BitVec.getElem_and, hsign, BitVec.getElem_ushiftRight]
  by_cases hmoved : 1 + i < w
  · simp [hmoved, show i + 1 ≠ w by omega]
  · obtain rfl : w = i + 1 := by omega
    simp [Nat.add_comm 1 i, BitVec.msb_eq_getLsbD_last]

theorem shiftLeft_one_eq_add_self (d : BitVec w) : d <<< 1 = d + d :=
  BitVec.eq_of_toNat_eq (by rw [BitVec.toNat_shiftLeft, BitVec.toNat_add, Nat.shiftLeft_eq, pow_one, mul_two])

theorem aluRor_eq (k : Codes) (d : BitVec (1 + w)) :
    aluRor k d = (BitVec.ofBool k.c ++ d.extractLsb' 1 w,
      shiftCodes (BitVec.ofBool k.c ++ d.extractLsb' 1 w) (d.getLsbD 0)) := by
  rw [aluRor, ror_eq_append]

theorem aluRol_eq (k : Codes) (d : BitVec (w + 1)) :
    aluRol k d = (d.extractLsb' 0 w ++ BitVec.ofBool k.c,
      shiftCodes (d.extractLsb' 0 w ++ BitVec.ofBool k.c) d.msb) := by
  rw [aluRol, rol_eq_append]

theorem aluAsr_eq (d : BitVec w) : aluAsr d = (d.sshiftRight 1, shiftCodes (d.sshiftRight 1) (d.getLsbD 0)) := by
  rw [aluAsr, asr_eq_sshiftRight]

theorem aluAsl_eq (d : BitVec w) : aluAsl d = (d + d, shiftCodes (d + d) d.msb) := by
  rw [aluAsl, shiftLeft_one_eq_add_self]

theorem msb_highByte (d : Word) : (highByte d).msb = d.getLsbD 15 := by
  rw [highByte, BitVec.msb_eq_getLsbD_last, BitVec.getLsbD_extractLsb']
  rfl

/-- SWAB: the low byte of the result, which gives N and Z, is the high byte of the operand (R304). -/
theorem aluSwab_eq (d : Word) :
    aluSwab d = (wordOf (lowByte d) (highByte d),
      { n := d.getLsbD 15, z := highByte d == 0, v := false, c := false }) := by
  have hlow : lowByte (wordOf (lowByte d) (highByte d)) = highByte d := lowByte_wordOf _ _
  rw [aluSwab, hlow, msb_highByte]

end Results

/-! The ends of an instruction that has found its one operand. -/

section Ends

variable {s s1 t : State} {o : Operand} {l : Loc} {p : Bool}

/-- The word instructions in the frame of R300, computed from the codes before the instruction. -/
theorem singleWord_completes {f : Codes → Word → AluResult 16} {d r : Word} {k : Codes} (he : evalField 2 o s = .ok l s1)
    (hf : f (psCodes s.ps) d = (r, k)) (h : rewritesWord l s1 d r p t) :
    runInstr (singleWord o f) s = completed (settled p k t) := by
  rw [← (finds_evalField 2 o).ps_eq he] at hf
  exact runInstr_ok ((bind_of_ok he).trans (modifyWord_of_rewritesWord hf h))

/-- The byte instructions in the frame of R300. -/
theorem singleByte_completes {f : Codes → Byte → AluResult 8} {d r : Byte} {k : Codes} (he : evalField 1 o s = .ok l s1)
    (hf : f (psCodes s.ps) d = (r, k)) (h : rewritesByte l s1 d r p t) :
    runInstr (singleByte o f) s = completed (settled p k t) := by
  rw [← (finds_evalField 1 o).ps_eq he] at hf
  exact runInstr_ok ((bind_of_ok he).trans (modifyByte_of_rewritesByte hf h))

end Ends

/-- Settles O24: each instruction runs in the frame of R300. COM, INC and DEC compute as the statement writes it, the others
by the lemma for their result. -/
theorem singleOperandWord : Obligations.SingleOperandWord := by
  intro s s1 o l he c carry rewrites nz shifted
  exact ⟨fun d p t h => singleWord_completes he rfl h,
    fun d p t h => singleWord_completes he rfl h,
    fun d p t h => singleWord_completes he rfl h,
    fun d p t h => singleWord_completes he (aluNeg_eq d) h,
    fun d p t h => singleWord_completes he (aluAdc_eq _ d) h,
    fun d p t h => singleWord_completes he (aluSbc_eq _ d) h,
    fun d p t h => singleWord_completes he (aluRor_eq (w := 15) _ d) h,
    fun d p t h => singleWord_completes he (aluRol_eq (w := 15) _ d) h,
    fun d p t h => singleWord_completes he (aluAsr_eq d) h,
    fun d p t h => singleWord_completes he (aluAsl_eq d) h,
    fun d p t h => singleWord_completes he (aluSwab_eq d) h⟩

/-- Settles O25: as for words, by the same lemmas, which hold at every width. -/
theorem singleOperandByte : Obligations.SingleOperandByte := by
  intro s s1 o l he c carry rewrites nz shifted
  exact ⟨fun d p t h => singleByte_completes he rfl h,
    fun d p t h => singleByte_completes he rfl h,
    fun d p t h => singleByte_completes he rfl h,
    fun d p t h => singleByte_completes he (aluNeg_eq d) h,
    fun d p t h => singleByte_completes he (aluAdc_eq _ d) h,
    fun d p t h => singleByte_completes he (aluSbc_eq _ d) h,
    fun d p t h => singleByte_completes he (aluRor_eq (w := 7) _ d) h,
    fun d p t h => singleByte_completes he (aluRol_eq (w := 7) _ d) h,
    fun d p t h => singleByte_completes he (aluAsr_eq d) h,
    fun d p t h => singleByte_completes he (aluAsl_eq d) h⟩

/-- Settles O26: CLR and SXT are one store of a value the codes alone give, TST is one read. -/
theorem clearTestExtend : Obligations.ClearTestExtend := by
  intro s s1 o l n cleared
  refine ⟨fun he => ⟨fun p t h => ?_, fun p t h => ?_, fun d t h => ?_⟩, fun he => ⟨fun p t h => ?_, fun d t h => ?_⟩⟩
  · exact runInstr_ok ((bind_of_ok he).trans (storeWord_of_writeLoc h))
  · have hcodes : codesNow s1 = .ok (psCodes s.ps) s1 := by
      rw [codesNow_run, (finds_evalField 2 o).ps_eq he]
    exact runInstr_ok ((bind_of_ok he).trans ((bind_of_ok hcodes).trans (storeWord_of_writeLoc h)))
  · exact runInstr_ok ((bind_of_ok he).trans ((bind_of_ok h).trans (setCodesOnly_run _ t)))
  · exact runInstr_ok ((bind_of_ok he).trans (storeByte_of_writeLocByte h))
  · exact runInstr_ok ((bind_of_ok he).trans ((bind_of_ok h).trans (setCodesOnly_run _ t)))

end Sys2Proof.Machine

namespace Sys2Proof.Machine

/-! Arithmetic on register pairs (spec/42_double_operand.md R340 to R349): multiply, divide and the arithmetic shifts. -/

section Arithmetic

variable {w : Nat}

theorem highWord_ofInt (p : Int) : highWord (BitVec.ofInt 32 p) = BitVec.ofInt 16 (p / 0o200000) := by
  apply BitVec.eq_of_toNat_eq
  rw [highWord, BitVec.extractLsb'_toNat, BitVec.toNat_ofInt, BitVec.toNat_ofInt, Nat.shiftRight_eq_div_pow]
  omega

theorem lowWord_ofInt (p : Int) : lowWord (BitVec.ofInt 32 p) = BitVec.ofInt 16 p := by
  apply BitVec.eq_of_toNat_eq
  rw [lowWord, BitVec.extractLsb'_toNat, BitVec.toNat_ofInt, BitVec.toNat_ofInt, Nat.shiftRight_zero]
  omega

/-- The number in a register pair: its high half is signed, its low half is not (R340). -/
theorem toInt_append_word (x y : Word) : (x ++ y : BitVec 32).toInt = x.toInt * 0o200000 + y.toNat := by
  rw [BitVec.toInt_append, if_neg (by decide), Int.mul_comm]
  rfl

theorem aluMul_eq (x v : Word) :
    aluMul x v = (BitVec.ofInt 32 (x.toInt * v.toInt),
      { n := decide (x.toInt * v.toInt < 0), z := decide (x.toInt * v.toInt = 0), v := false,
        c := decide (x.toInt * v.toInt < -0o100000 ∨ 0o77777 < x.toInt * v.toInt) }) := rfl

theorem aluDiv_zero (n : BitVec 32) : aluDiv n 0 = (none, { n := false, z := false, v := true, c := true }) := rfl

/-- DIV stores nothing when the quotient does not fit (R347). -/
theorem aluDiv_overflow {n : BitVec 32} {v : Word} (hv : v ≠ 0)
    (hq : ¬(-0o100000 ≤ n.toInt.tdiv v.toInt ∧ n.toInt.tdiv v.toInt ≤ 0o77777)) :
    aluDiv n v = (none, { n := false, z := false, v := true, c := false }) := by
  rw [aluDiv, if_neg hv, if_pos (by omega)]

/-- DIV by a divisor that is not 0, with a quotient that fits: the remainder is what the product of quotient and divisor
leaves of the dividend (R347). -/
theorem aluDiv_fits {n : BitVec 32} {v : Word} {q : Int} (hv : v ≠ 0) (hq : n.toInt.tdiv v.toInt = q)
    (hlow : -0o100000 ≤ q) (hhigh : q ≤ 0o77777) :
    aluDiv n v = (some (BitVec.ofInt 16 q, BitVec.ofInt 16 (n.toInt - q * v.toInt)),
      { n := decide (q < 0), z := decide (q = 0), v := false, c := false }) := by
  have hrem : n.toInt.tmod v.toInt = n.toInt - q * v.toInt := by rw [Int.tmod_def, hq, Int.mul_comm]
  rw [aluDiv, if_neg hv, hq, if_neg (by omega), hrem]

/-- Shifting left one place at a time: the sign has changed at some step exactly when the sign after some step is not the
first one (R348). -/
theorem shiftLeft_eq (k : Nat) (x : BitVec w) (c v : Bool) :
    shiftLeft k x c v = (x <<< k, if k = 0 then c else (x <<< (k - 1)).msb,
      v || decide (∃ j < k, (x <<< (j + 1)).msb ≠ x.msb)) := by
  induction k generalizing x c v with
  | zero => simp [shiftLeft]
  | succ k ih =>
    have hcarry : (if k = 0 then x.msb else (x <<< 1 <<< (k - 1)).msb) = (x <<< k).msb := by
      cases k with
      | zero => simp
      | succ k => rw [if_neg k.succ_ne_zero, ← BitVec.shiftLeft_add, Nat.succ_sub_one, Nat.add_comm 1 k]
    have hsign : ((v || ((x <<< 1).msb != x.msb)) || decide (∃ j < k, (x <<< 1 <<< (j + 1)).msb ≠ (x <<< 1).msb))
        = (v || decide (∃ j < k + 1, (x <<< (j + 1)).msb ≠ x.msb)) := by
      simp only [Nat.exists_lt_succ_left, ← BitVec.shiftLeft_add, Nat.add_comm 1, Nat.zero_add]
      by_cases h : (x <<< 1).msb = x.msb
      · simp only [h, bne_self_eq_false, Bool.or_false, ne_eq, not_true_eq_false, false_or]
      · simp only [ne_eq, h, not_false_eq_true, true_or, decide_true, bne_iff_ne.mpr h, Bool.or_true, Bool.true_or]
    rw [shiftLeft, ih, hcarry, hsign, ← BitVec.shiftLeft_add, Nat.add_comm 1 k]
    rfl

/-- Shifting right one place at a time (R348). -/
theorem shiftRight_eq (k : Nat) (x : BitVec w) (c : Bool) :
    shiftRight k x c = (x.sshiftRight k, if k = 0 then c else (x.sshiftRight (k - 1)).getLsbD 0) := by
  induction k generalizing x c with
  | zero => simp [shiftRight]
  | succ k ih =>
    have hcarry : (if k = 0 then x.getLsbD 0 else ((x.sshiftRight 1).sshiftRight (k - 1)).getLsbD 0)
        = (x.sshiftRight k).getLsbD 0 := by
      cases k with
      | zero => simp
      | succ k => rw [if_neg k.succ_ne_zero, ← BitVec.sshiftRight_add, Nat.succ_sub_one, Nat.add_comm 1 k]
    rw [shiftRight, asr_eq_sshiftRight, ih, hcarry, ← BitVec.sshiftRight_add, Nat.add_comm 1 k]
    rfl

/-- ASH and ASHC by a count that is not negative (R348, R349); a count of 0 leaves C and V clear (D29). -/
theorem aluAsh_left {x : BitVec w} {v : Word} {n : Nat} (h : (v.extractLsb' 0 6).toInt = n) :
    aluAsh x v = (x <<< n, codesOf (x <<< n) (decide (∃ j < n, (x <<< (j + 1)).msb ≠ x.msb))
      (decide (0 < n) && (x <<< (n - 1)).msb)) := by
  have hcarry : (if n = 0 then false else (x <<< (n - 1)).msb) = (decide (0 < n) && (x <<< (n - 1)).msb) := by
    cases n <;> simp
  simp only [aluAsh, h, if_pos (Int.natCast_nonneg n), Int.toNat_natCast, shiftLeft_eq, hcarry, Bool.false_or]

/-- ASH and ASHC by a negative count: the sign stays (R348, R349). -/
theorem aluAsh_right {x : BitVec w} {v : Word} {n : Nat} (hn : n ≠ 0) (h : (v.extractLsb' 0 6).toInt = -n) :
    aluAsh x v = (x.sshiftRight n,
      { n := x.msb, z := x.sshiftRight n == 0, v := false, c := (x.sshiftRight (n - 1)).getLsbD 0 }) := by
  simp only [aluAsh, h, if_neg (show ¬0 ≤ -(n : Int) by omega), neg_neg, Int.toNat_natCast, shiftRight_eq, if_neg hn,
    codesOf, BitVec.msb_sshiftRight]

end Arithmetic

section Pairs

variable {r : Reg} {o : Operand} {s s1 s2 s3 : State} {v x y : Word} {k : Codes}

theorem readPair_of_readReg (hx : readReg r s = .ok x s1) (hy : readReg (oddOf r) s1 = .ok y s2) :
    readPair r s = .ok (x ++ y) s2 :=
  (bind_of_ok hx).trans (bind_of_ok hy)

theorem writePair_run (r : Reg) (hi lo : Word) (s : State) :
    writePair r hi lo s = .ok ⟨⟩ ((s.withReg r hi).withReg (oddOf r) lo) := rfl

/-- MUL ends with the product in the pair. -/
theorem mul_completes {p : BitVec 32} (hv : operandWord o s = .ok v s1) (hx : readReg r s1 = .ok x s2)
    (hp : aluMul x v = (p, k)) :
    exec (.mul r o) s
      = completed (settled false k ((s2.withReg r (highWord p)).withReg (oddOf r) (lowWord p))) := by
  refine runInstr_ok ((bind_of_ok hv).trans ((bind_of_ok hx).trans ?_))
  rw [hp]
  exact (bind_of_ok (writePair_run r _ _ s2)).trans (setCodesOnly_run k _)

/-- DIV that stores nothing. -/
theorem div_completes_none (hv : operandWord o s = .ok v s1) (hx : readReg r s1 = .ok x s2)
    (hy : readReg (oddOf r) s2 = .ok y s3) (hd : aluDiv (x ++ y) v = (none, k)) :
    exec (.div r o) s = completed (settled false k s3) := by
  refine runInstr_ok ((bind_of_ok hv).trans ((bind_of_ok (readPair_of_readReg hx hy)).trans ?_))
  rw [hd]
  exact setCodesOnly_run k s3

/-- DIV that stores quotient and remainder. -/
theorem div_completes_some {q m : Word} (hv : operandWord o s = .ok v s1) (hx : readReg r s1 = .ok x s2)
    (hy : readReg (oddOf r) s2 = .ok y s3) (hd : aluDiv (x ++ y) v = (some (q, m), k)) :
    exec (.div r o) s = completed (settled false k ((s3.withReg r q).withReg (oddOf r) m)) := by
  refine runInstr_ok ((bind_of_ok hv).trans ((bind_of_ok (readPair_of_readReg hx hy)).trans ?_))
  rw [hd]
  exact (bind_of_ok (writePair_run r q m s3)).trans (setCodesOnly_run k _)

theorem ash_completes {z : Word} (hv : operandWord o s = .ok v s1) (hx : readReg r s1 = .ok x s2)
    (hz : aluAsh x v = (z, k)) : exec (.ash r o) s = completed (settled false k (s2.withReg r z)) := by
  refine runInstr_ok ((bind_of_ok hv).trans ((bind_of_ok hx).trans ?_))
  rw [hz]
  exact (bind_of_ok (writeReg_run r z s2)).trans (setCodesOnly_run k _)

theorem ashc_completes {z : BitVec 32} (hv : operandWord o s = .ok v s1) (hx : readReg r s1 = .ok x s2)
    (hy : readReg (oddOf r) s2 = .ok y s3) (hz : aluAsh (x ++ y) v = (z, k)) :
    exec (.ashc r o) s
      = completed (settled false k ((s3.withReg r (highWord z)).withReg (oddOf r) (lowWord z))) := by
  refine runInstr_ok ((bind_of_ok hv).trans ((bind_of_ok (readPair_of_readReg hx hy)).trans ?_))
  rw [hz]
  exact (bind_of_ok (writePair_run r _ _ s3)).trans (setCodesOnly_run k _)

end Pairs

/-- Settles O29: MUL stores the exact product; DIV has one end for each of a divisor of 0, a quotient that does not fit and
one that does. -/
theorem multiplyDivide : Obligations.MultiplyDivide := by
  intro s s1 s2 r o v x hv hx
  constructor
  · rw [mul_completes hv hx (aluMul_eq x v), highWord_ofInt, lowWord_ofInt]
  · intro y s3 hy dividend quotient
    have hdividend : (x ++ y : BitVec 32).toInt = dividend := toInt_append_word x y
    refine ⟨fun h0 => ?_, fun h0 hq => ?_, fun h0 hlow hhigh => ?_⟩
    · subst h0
      exact div_completes_none hv hx hy (aluDiv_zero _)
    · exact div_completes_none hv hx hy (aluDiv_overflow h0 (by rwa [hdividend]))
    · rw [← hdividend]
      exact div_completes_some hv hx hy (aluDiv_fits h0 (by rw [hdividend]) hlow hhigh)

/-- Settles O30: a count is a number of places to the left or to the right, and each direction is one computation, of a word
for ASH and of a pair for ASHC. -/
theorem arithmeticShifts : Obligations.ArithmeticShifts := by
  intro s s1 s2 r o v x hv hx count left right
  by_cases hcount : 0 ≤ count
  · have hleft : (v.extractLsb' 0 6).toInt = left := (Int.toNat_of_nonneg hcount).symm
    simp only [if_pos hcount]
    exact ⟨ash_completes hv hx (aluAsh_left hleft), fun y s3 hy => ashc_completes hv hx hy (aluAsh_left hleft)⟩
  · have hright : (v.extractLsb' 0 6).toInt = -right := by
      have hnat : (right : Int) = -count := Int.toNat_of_nonneg (by omega)
      omega
    have hne : right ≠ 0 := by omega
    simp only [if_neg hcount]
    exact ⟨ash_completes hv hx (aluAsh_right hne hright), fun y s3 hy => ashc_completes hv hx hy (aluAsh_right hne hright)⟩

end Sys2Proof.Machine

namespace Sys2Proof.Machine

/-! The codes of a compare and the branches that look at them (spec/42_double_operand.md R333, spec/43_branch.md R370 to
R385). -/

section Compare

variable {w : Nat}

theorem aluCmp_z_iff (a b : BitVec w) : (aluCmp a b).z = true ↔ a = b :=
  beq_iff_eq.trans sub_eq_zero

theorem aluCmp_c_iff (a b : BitVec w) : (aluCmp a b).c = true ↔ a.toNat < b.toNat :=
  decide_eq_true_iff

/-- N of a compare is the sign of a difference that may have wrapped around, and V says whether it has; N xor V is the sign
of the exact difference. -/
theorem aluCmp_n_xor_v_iff (a b : Word) : ((aluCmp a b).n ^^ (aluCmp a b).v) = true ↔ a.toInt < b.toInt := by
  have hwrap : (a - b).toInt = (a.toInt - b.toInt).bmod 0o200000 := BitVec.toInt_sub
  have ha : -0o100000 ≤ a.toInt ∧ a.toInt < 0o100000 := ⟨BitVec.le_toInt a, BitVec.toInt_lt⟩
  have hb : -0o100000 ≤ b.toInt ∧ b.toInt < 0o100000 := ⟨BitVec.le_toInt b, BitVec.toInt_lt⟩
  rw [Int.bmod_def] at hwrap
  rw [aluCmp_eq, fitsSigned_word, codesOf, BitVec.msb_eq_toInt, bne_iff_ne, Ne, Bool.eq_iff_iff,
    decide_eq_true_iff, Bool.not_eq_true', decide_eq_false_iff_not]
  split at hwrap <;> omega

end Compare

section Branching

variable {s : State} {offset : Byte} {cond : Codes → Bool}

/-- The state a branch that is taken leaves (R370). -/
def State.branched (offset : Byte) (s : State) : State :=
  { s with regs := { s.regs with pc := s.regs.pc + BitVec.ofInt 16 (2 * offset.toInt) } }

theorem branchOffset_eq (offset : Byte) : branchOffset offset = BitVec.ofInt 16 (2 * offset.toInt) := by
  rw [branchOffset, shiftLeft_one_eq_add_self, two_mul, BitVec.ofInt_add]
  rfl

theorem branchIf_run (cond : Codes → Bool) (offset : Byte) (s : State) :
    branchIf cond offset s = .ok ⟨⟩ (if cond (psCodes s.ps) then s.branched offset else s) := by
  rw [State.branched, ← branchOffset_eq]
  refine (bind_of_ok (codesNow_run s)).trans ?_
  cases cond (psCodes s.ps) <;> rfl

/-- A branch whose condition on the codes says `P`. -/
theorem branches_of_iff {P : Prop} (h : cond (psCodes s.ps) = true ↔ P) :
    (P → runInstr (branchIf cond offset) s = completed (s.branched offset))
      ∧ (¬P → runInstr (branchIf cond offset) s = completed s) := by
  have hrun := runInstr_ok (branchIf_run cond offset s)
  exact ⟨fun hP => by rwa [if_pos (h.mpr hP)] at hrun, fun hP => by rwa [if_neg fun hc => hP (h.mp hc)] at hrun⟩

end Branching

theorem not_eq_true_iff_not {c : Bool} {P : Prop} (h : c = true ↔ P) : (!c) = true ↔ ¬P := by
  rw [Bool.not_eq_true', ← Bool.not_eq_true, h]

/-- Settles O33: after a compare Z says equal, C says less without sign and N xor V says less with sign; each branch looks at
one of them, at one together with Z, or at the opposite of these. -/
theorem compareThenBranch : Obligations.CompareThenBranch := by
  intro a b s offset hcodes taken branches
  have hequal : (psCodes s.ps).z = true ↔ a = b := hcodes ▸ aluCmp_z_iff a b
  have hlower : (psCodes s.ps).c = true ↔ a.toNat < b.toNat := hcodes ▸ aluCmp_c_iff a b
  have hless : ((psCodes s.ps).n ^^ (psCodes s.ps).v) = true ↔ a.toInt < b.toInt := hcodes ▸ aluCmp_n_xor_v_iff a b
  have hlowerOrSame : ((psCodes s.ps).c || (psCodes s.ps).z) = true ↔ a.toNat ≤ b.toNat := by
    rw [Bool.or_eq_true, hlower, hequal, ← BitVec.toNat_inj, Nat.le_iff_lt_or_eq]
  have hlessOrEqual : ((psCodes s.ps).z || ((psCodes s.ps).n ^^ (psCodes s.ps).v)) = true ↔ a.toInt ≤ b.toInt := by
    rw [Bool.or_eq_true, hless, hequal, ← BitVec.toInt_inj, Or.comm, Int.le_iff_lt_or_eq]
  have hhigher : (!(psCodes s.ps).c && !(psCodes s.ps).z) = true ↔ b.toNat < a.toNat := by
    rw [← Bool.not_or]
    exact (not_eq_true_iff_not hlowerOrSame).trans not_le
  exact ⟨branches_of_iff hless, branches_of_iff ((not_eq_true_iff_not hless).trans not_lt),
    branches_of_iff ((not_eq_true_iff_not hlessOrEqual).trans not_le), branches_of_iff hlessOrEqual,
    branches_of_iff hlower, branches_of_iff hhigher, branches_of_iff hlowerOrSame,
    branches_of_iff ((not_eq_true_iff_not hlower).trans not_lt), branches_of_iff hequal,
    branches_of_iff (not_eq_true_iff_not hequal)⟩

end Sys2Proof.Machine

namespace Sys2Proof.Machine

/-! The branches and SOB (spec/43_branch.md R370 to R390): their words as an op code plus its fields, and where they go. -/

/-- A word of two fields is the leading field in its place plus the trailing one. -/
theorem append_eq_add {n k : Nat} (x : BitVec n) (y : BitVec k) : x ++ y = (x ++ 0#k) + y.setWidth (n + k) := by
  have hlt := (x ++ y).isLt
  apply BitVec.eq_of_toNat_eq
  rw [BitVec.toNat_add, append_toNat, BitVec.toNat_setWidth_of_le (Nat.le_add_left k n), append_toNat, BitVec.toNat_zero,
    Nat.add_zero, Nat.mod_eq_of_lt (by rwa [append_toNat] at hlt)]

/-- The format of the branches: the op code with a low byte of 0, plus the offset (R205). -/
theorem base_add_offset {base : Word} {op : BitVec 8} (hbase : withLowByte op 0 = base) (offset : Byte) :
    base + offset.setWidth 16 = withLowByte op offset :=
  hbase ▸ (append_eq_add op offset).symm

/-- The format of SOB: its op code, the register from bit 6 on and the count (R206). -/
theorem base_add_reg_add_count (r : Reg) (nn : BitVec 6) :
    (0o077000 : Word) + (r.bits.setWidth 16 <<< 6) + nn.setWidth 16 = withRegCount 0o77 r nn := by
  have hfields : (r.bits ++ nn).setWidth 16 = (r.bits.setWidth 16 <<< 6) + nn.setWidth 16 := by
    have happend : (r.bits ++ nn).toNat = r.bits.toNat * 2 ^ 6 + nn.toNat := append_toNat r.bits nn
    bv_omega
  calc (0o077000 : Word) + (r.bits.setWidth 16 <<< 6) + nn.setWidth 16
      = 0o077000 + (r.bits ++ nn).setWidth 16 := by rw [hfields, add_assoc]
    _ = withRegCount 0o77 r nn := (append_eq_add 0o77 (r.bits ++ nn)).symm

theorem decodeWord_sob (r : Reg) (nn : BitVec 6) :
    decodeWord ((0o077000 : Word) + (r.bits.setWidth 16 <<< 6) + nn.setWidth 16) = .sob r nn := by
  rw [base_add_reg_add_count, ← encodeWord_sob, decodeWord_encodeWord rfl]

section Branching

variable {s : State} {offset : Byte} {cond : Codes → Bool} {i : Instr} {base : Word}

/-- An instruction of the format of R205 that runs as a branch on `cond` is the one its word decodes to, and goes where its
condition says. -/
theorem branch_decodes_and_completes (op : BitVec 8) {condition : Bool} (hbase : withLowByte op 0 = base)
    (hword : encodeWord i = withLowByte op offset) (hwf : i.wellFormed = true)
    (hexec : exec i s = runInstr (branchIf cond offset) s) (hcond : cond (psCodes s.ps) = condition) :
    decodeWord (base + offset.setWidth 16) = i
      ∧ exec i s = completed (if condition = true then s.branched offset else s) := by
  constructor
  · rw [base_add_offset hbase, ← hword, decodeWord_encodeWord hwf]
  · rw [hexec, runInstr_ok (branchIf_run cond offset s), hcond]

end Branching

/-- Twice the count of SOB, as 16 bits (R390). -/
theorem count_shiftLeft_one (nn : BitVec 6) : nn.setWidth 16 <<< 1 = BitVec.ofNat 16 (2 * nn.toNat) := by
  bv_omega

/-- SOB goes back unless its register is then 0, and the register is 0 after a decrement of 1 alone (R390). -/
theorem sob_completes {r : Reg} {s u : State} {x : Word} (nn : BitVec 6) (hx : readReg r s = .ok x u) :
    exec (.sob r nn) s = completed
      (if x = 1 then u.withReg r (x - 1)
        else (u.withReg r (x - 1)).withReg .pc
          ((u.withReg r (x - 1)).regs.pc - BitVec.ofNat 16 (2 * nn.toNat))) := by
  refine runInstr_ok ((bind_of_ok hx).trans ((bind_of_ok (writeReg_run r (x - 1) u)).trans ?_))
  rw [← count_shiftLeft_one]
  by_cases h1 : x = 1
  · rw [if_pos h1, if_pos (sub_eq_zero.mpr h1)]
    rfl
  · rw [if_neg h1, if_neg (sub_ne_zero.mpr h1)]
    rfl

/-- Settles O32: each branch is an op code and a condition on the codes; SOB is its format and its one test. -/
theorem branches : Obligations.Branches := by
  intro s offset n z v c taken branches
  have hless : (n == v) = !(n ^^ v) := (Bool.not_not _).symm
  have hgreater : (!(z || (n ^^ v))) = (!z && n == v) := by rw [hless, Bool.not_or]
  exact ⟨branch_decodes_and_completes 0o1 rfl rfl rfl rfl rfl,
    branch_decodes_and_completes 0o2 rfl rfl rfl rfl rfl, branch_decodes_and_completes 0o3 rfl rfl rfl rfl rfl,
    branch_decodes_and_completes 0o200 rfl rfl rfl rfl rfl, branch_decodes_and_completes 0o201 rfl rfl rfl rfl rfl,
    branch_decodes_and_completes 0o204 rfl rfl rfl rfl rfl, branch_decodes_and_completes 0o205 rfl rfl rfl rfl rfl,
    branch_decodes_and_completes 0o206 rfl rfl rfl rfl rfl, branch_decodes_and_completes 0o207 rfl rfl rfl rfl rfl,
    branch_decodes_and_completes 0o4 rfl rfl rfl rfl hless.symm, branch_decodes_and_completes 0o5 rfl rfl rfl rfl rfl,
    branch_decodes_and_completes 0o6 rfl rfl rfl rfl hgreater, branch_decodes_and_completes 0o7 rfl rfl rfl rfl rfl,
    branch_decodes_and_completes 0o202 rfl rfl rfl rfl rfl, branch_decodes_and_completes 0o203 rfl rfl rfl rfl rfl,
    fun r nn x u hx => ⟨decodeWord_sob r nn, sob_completes nn hx⟩⟩

end Sys2Proof.Machine

namespace Sys2Proof.Machine

/-! Jumps, subroutines and returns that run to their end (spec/44_jump_subroutine_trap.md R400 to R410). -/

section Jumps

variable {s s1 : State} {o : Operand} {r : Reg} {target : Word}

/-- The destination of a jump is an address, never what it holds (R400, R401). -/
theorem jumpAddress_of_mem (he : evalField 2 o s = .ok (.mem target) s1) : jumpAddress o s = .ok target s1 :=
  bind_of_ok he

theorem jmp_completes (he : evalField 2 o s = .ok (.mem target) s1) :
    exec (.jmp o) s = completed { s1 with regs := { s1.regs with pc := target } } :=
  runInstr_ok ((bind_of_ok (jumpAddress_of_mem he)).trans (jumpTo_run target s1))

/-- JSR reads its link register after R6 has moved, and jumps to the address formed before it (R401). -/
theorem jsr_completes {u v v' t : State} {sp link : Word} {p : Bool} (he : evalField 2 o s = .ok (.mem target) s1)
    (hsp : readReg .sp s1 = .ok sp u) (hlimit : noteStackLimit (sp - 2) (u.withReg .sp (sp - 2)) = .ok ⟨⟩ v)
    (hlink : readReg r v = .ok link v') (hpush : writeWord (sp - 2) link v' = .ok p t) :
    exec (.jsr r o) s = completed
      { t.withReg r t.regs.pc with regs := { (t.withReg r t.regs.pc).regs with pc := target } } := by
  refine runInstr_ok ((bind_of_ok (jumpAddress_of_mem he)).trans ((bind_of_ok hsp).trans
    ((bind_of_ok (writeReg_run .sp (sp - 2) u)).trans ((bind_of_ok hlimit).trans ((bind_of_ok hlink).trans
      ((bind_of_ok hpush).trans ?_))))))
  exact (bind_of_ok (run_get t)).trans ((bind_of_ok (writeReg_run r t.regs.pc t)).trans (jumpTo_run target _))

theorem rts_completes {x w : Word} {u t : State} (hx : readReg r s = .ok x u)
    (hpop : pop { u with regs := { u.regs with pc := x } } = .ok w t) : exec (.rts r) s = completed (t.withReg r w) :=
  runInstr_ok ((bind_of_ok hx).trans ((bind_of_ok (jumpTo_run x u)).trans
    ((bind_of_ok hpop).trans (writeReg_run r w t))))

/-- MARK jumps through R5 as it was before R6 moved past the parameters (R404). -/
theorem mark_completes {nn : BitVec 6} {w : Word} {marked t : State}
    (hmarked : s.withReg .sp (s.regs.pc + BitVec.ofNat 16 (2 * nn.toNat)) = marked)
    (hpop : pop { marked with regs := { marked.regs with pc := s.regs.r5 } } = .ok w t) :
    exec (.mark nn) s = completed (t.withReg .r5 w) := by
  rw [← count_shiftLeft_one] at hmarked
  subst hmarked
  exact runInstr_ok ((bind_of_ok (run_get s)).trans ((bind_of_ok (writeReg_run .sp _ s)).trans
    ((bind_of_ok (readReg_five_withSp s _)).trans ((bind_of_ok (jumpTo_run _ _)).trans
      ((bind_of_ok hpop).trans (writeReg_run .r5 w t))))))

end Jumps

/-- Settles O34: each instruction step by step in the order of its rule. -/
theorem jumpsAndSubroutines : Obligations.JumpsAndSubroutines :=
  fun _ =>
    ⟨fun _ _ _ he => ⟨jmp_completes he, fun _ _ _ _ _ _ _ _ hsp hlimit hlink hpush =>
        jsr_completes he hsp hlimit hlink hpush⟩,
      fun _ _ _ _ _ hx hpop => rts_completes hx hpop,
      fun _ _ _ hpop => mark_completes rfl hpop⟩

namespace Returns

variable {s u t : State} {pc ps : Word}

/-- The whole PS in kernel mode, and SI, T and the condition codes in any other (spec/10_state.md R39). -/
theorem returnMask_eq (mode : Mode) : returnMask mode = if mode = .kernel then 0o170777 else 0o437 := by
  cases mode <;> rfl

/-- The pops leave the PS, so the PS before the return decides what is loaded and stands where nothing is (R409). -/
theorem returnFromTrap_run (hpc : pop s = .ok pc u) (hps : pop u = .ok ps t) :
    Machine.returnFromTrap s
      = .ok ⟨⟩ { t with regs := { t.regs with pc := pc }, ps := merge (returnMask s.mode) ps s.ps } := by
  have hkept : s.ps = t.ps := ((finds_pop.ps_eq hps).trans (finds_pop.ps_eq hpc)).symm
  rw [State.mode, hkept]
  exact (bind_of_ok hpc).trans (bind_of_ok hps)

/-- RTT ends as any instruction does, but for the trace request (R410). -/
theorem runReturnTrace_ok {m : M Unit} (h : m s = .ok ⟨⟩ t) : runReturnTrace m s = .next (inhibitTrace t) := by
  simp only [runReturnTrace, h, finish]

/-- Settles O20: RTI and RTT share their two pops and differ in the trace request alone. -/
theorem returnFromTrap : Obligations.ReturnFromTrap := by
  intro s u t pc ps hpc hps mask after
  have hrun : Machine.returnFromTrap s = .ok ⟨⟩ after := by
    rw [returnFromTrap_run hpc hps, returnMask_eq, merge]
  exact ⟨runInstr_ok hrun, runReturnTrace_ok hrun⟩

end Returns

end Sys2Proof.Machine

namespace Sys2Proof.Machine

/-! The condition-code operators and the moves of the PS (spec/45_misc_cc_mmu_ps.md R433, R440, R441, R454, R455). -/

section Operators

variable (s : State) (mask : BitVec 4)

theorem clearMask_completes :
    runInstr (clearMask mask) s = completed { s with ps := s.ps &&& ~~~mask.setWidth 16 } :=
  runInstr_ok (run_modify _ s)

theorem setMask_completes :
    runInstr (setMask mask) s = completed { s with ps := s.ps ||| mask.setWidth 16 } :=
  runInstr_ok (run_modify _ s)

/-- The word of an unnamed mask is that of the group's instruction, the six others are those of the named ones (R440). -/
theorem exec_clear_group :
    exec (decodeWord (0o000240 + mask.setWidth 16)) s = runInstr (clearMask mask) s := by
  cases h : namedClearMask mask with
  | false =>
    have hword : (0o000240 : Word) + mask.setWidth 16 = encodeWord (.clearCodes mask) :=
      (append_eq_add (0o12 : BitVec 12) mask).symm
    rw [hword, decodeWord_clearCodes h]
    rfl
  | true =>
    have hnamed : mask ∈ [0, 1, 2, 4, 8, 15] := by revert mask; decide
    simp only [List.mem_cons, List.not_mem_nil, or_false] at hnamed
    rcases hnamed with rfl | rfl | rfl | rfl | rfl | rfl <;> rfl

/-- As for the clear group; the mask of no bit has no name here (R441). -/
theorem exec_set_group :
    exec (decodeWord (0o000260 + mask.setWidth 16)) s = runInstr (setMask mask) s := by
  cases h : namedSetMask mask with
  | false =>
    have hword : (0o000260 : Word) + mask.setWidth 16 = encodeWord (.setCodes mask) :=
      (append_eq_add (0o13 : BitVec 12) mask).symm
    rw [hword, decodeWord_setCodes h]
    rfl
  | true =>
    have hnamed : mask ∈ [1, 2, 4, 8, 15] := by revert mask; decide
    simp only [List.mem_cons, List.not_mem_nil, or_false] at hnamed
    rcases hnamed with rfl | rfl | rfl | rfl | rfl <;> rfl

end Operators

/-- NOP clears the bits of an empty mask (R433). -/
theorem nop_completes (s : State) : exec .nop s = completed s := by
  have hempty : s.ps &&& ~~~(0 : BitVec 4).setWidth 16 = s.ps := BitVec.and_allOnes
  exact (clearMask_completes s 0).trans (by rw [hempty])

/-- Settles O35: the words of both groups run as `clearMask` and `setMask`, and so does each named instruction. -/
theorem conditionCodeOperators : Obligations.ConditionCodeOperators := by
  intro s mask clears sets
  exact ⟨(exec_clear_group s mask).trans (clearMask_completes s mask),
    (exec_set_group s mask).trans (setMask_completes s mask), rfl, nop_completes s,
    clearMask_completes s 1, clearMask_completes s 2, clearMask_completes s 4, clearMask_completes s 8,
    clearMask_completes s 15, clearMask_completes s mask, setMask_completes s 1, setMask_completes s 2,
    setMask_completes s 4, setMask_completes s 8, setMask_completes s 15, setMask_completes s mask⟩

/-- The priority and the codes in kernel mode, the codes alone in any other (R455). -/
theorem mtpsMask_eq (mode : Mode) : mtpsMask mode = if mode = .kernel then 0o357 else 0o17 := by
  cases mode <;> rfl

/-- MFPS moves the low byte the PS has before the operand is found, as MOVB moves its source (R454). -/
theorem mfps_completes {s s1 t : State} {o : Operand} {l : Loc} (he : evalField 1 o s = .ok l s1)
    (h : moveByte o (lowByte s.ps) l s1 = .ok ⟨⟩ t) : exec (.mfps o) s = completed t :=
  runInstr_ok ((bind_of_ok (run_get s)).trans ((bind_of_ok he).trans h))

/-- Settles O36: MFPS ends as MOVB does, by its operand being a register or not; MTPS is one masked load of the PS, whose mode
is still the one before the instruction. -/
theorem processorStatusMoves : Obligations.ProcessorStatusMoves := by
  intro s s1 o l he
  have hps : s1.ps = s.ps := (finds_evalField 1 o).ps_eq he
  refine ⟨?_, fun b t hb => ?_⟩
  · intro b k
    have hk : moveCodes (psCodes s1.ps) b = k := by rw [hps]; rfl
    rw [← hk]
    exact ⟨fun hm => mfps_completes he (moveByte_register hm), fun hm p t hw => mfps_completes he (moveByte_memory hm hw)⟩
  · intro mask
    have hpst : t.ps = s.ps := ((finds_readLocByte l).ps_eq hb).trans hps
    have hmask : mtpsMask t.mode = mask := by rw [mtpsMask_eq, State.mode, hpst]; rfl
    refine runInstr_ok ((bind_of_ok he).trans ((bind_of_ok hb).trans ?_))
    rw [run_modify, hmask, hpst, merge]

end Sys2Proof.Machine

namespace Sys2Proof.Machine

/-! Moves through the previous space (spec/45_misc_cc_mmu_ps.md R449 to R453). -/

theorem finds_readSpOf (mode : Mode) : Finds (readSpOf mode) := by
  intro s a t h
  rw [readSpOf_ok] at h
  cases h
  cases mode <;> exact ⟨0, rfl⟩

theorem finds_readPrevious (l : Loc) : Finds (readPrevious l) := by
  have hmode : Finds previousMode := fun s _ _ h => by
    cases h
    exact operandOnly_refl s
  cases l with
  | reg r => exact .ite (hmode.bind fun _ => finds_readSpOf _) (finds_readReg r)
  | mem ea => exact hmode.bind fun _ => fun _ _ _ h => operandOnly_of_readOnly (readWordIn_ok h)

/-- The codes of a moved word, from the PS before the instruction (R450, R452). -/
theorem moveCodes_of_ps {s t : State} (h : t.ps = s.ps) (v : Word) : moveCodes (psCodes t.ps) v
    = { n := v.getLsbD 15, z := v == 0, v := false, c := s.ps.getLsbD 0 } := by
  rw [h]
  rfl

section PreviousSpace

variable {s s1 s2 t : State} {o : Operand} {l : Loc} {v : Word} {p : Bool} {k : Codes}

theorem moveFromPrevious_of_push (he : evalField 2 o s = .ok l s1) (hv : readPrevious l s1 = .ok v s2)
    (hk : moveCodes (psCodes s2.ps) v = k) (h : push v s2 = .ok p t) :
    moveFromPrevious o s = .ok ⟨⟩ (settled p k t) := by
  subst hk
  exact (moveFromPrevious_run he).trans ((bind_of_ok hv).trans ((bind_of_ok (codesNow_run s2)).trans
    ((bind_of_ok h).trans (setCodes_run p _ t))))

/-- What MTPI and MTPD do with the word they have popped and the place they have found (R452). -/
def writePrevious (v : Word) : Loc → M Unit
  | .reg r => do
    writePrevReg r v
    setCodesOnly (moveCodes (← codesNow) v)
  | .mem ea => do
    let k := moveCodes (← codesNow) v
    setCodes (← writeWordIn (← previousMode) ea v) k

theorem moveToPrevious_run (hpop : pop s = .ok v s1) (he : evalField 2 o s1 = .ok l s2) :
    moveToPrevious o s = writePrevious v l s2 := by
  refine (bind_of_ok hpop).trans ((bind_of_ok he).trans ?_)
  cases l <;> rfl

theorem writePrevious_sp (hk : moveCodes (psCodes s.ps) v = k) :
    writePrevious v (.reg .sp) s
      = .ok ⟨⟩ (settled false k { s with regs := s.regs.withSp (psPrevious s.ps) v }) := by
  subst hk
  rfl

theorem writePrevious_reg {r : Reg} (hr : r ≠ .sp) (hk : moveCodes (psCodes s.ps) v = k) :
    writePrevious v (.reg r) s = .ok ⟨⟩ (settled false k (s.withReg r v)) := by
  subst hk
  simp only [writePrevious, writePrevReg, if_neg hr, run_bind, writeReg_run, codesNow_run, setCodesOnly_run]
  rfl

theorem writePrevious_mem {ea : Word} (hk : moveCodes (psCodes s.ps) v = k)
    (h : writeWordIn (psPrevious s.ps) ea v s = .ok p t) :
    writePrevious v (.mem ea) s = .ok ⟨⟩ (settled p k t) := by
  subst hk
  exact (bind_of_ok (codesNow_run s)).trans ((bind_of_ok (x := previousMode) rfl).trans
    ((bind_of_ok h).trans (setCodes_run p _ t)))

/-- MTPI and MTPD differ in name alone, as MFPI and MFPD do: there is no data space (R451, R453). -/
theorem moveToPrevious_completes (hpop : pop s = .ok v s1) (he : evalField 2 o s1 = .ok l s2)
    (h : writePrevious v l s2 = .ok ⟨⟩ t) :
    exec (.mtpi o) s = completed t ∧ exec (.mtpd o) s = completed t :=
  have hrun := (moveToPrevious_run hpop he).trans h
  ⟨runInstr_ok hrun, runInstr_ok hrun⟩

end PreviousSpace

/-- Settles O37: finding the operand, reading the previous space and popping leave the PS, so that the previous mode and the
carry are those before the instruction. -/
theorem previousSpaceMoves : Obligations.PreviousSpaceMoves := by
  intro s o codes previous
  refine ⟨fun s1 s2 t l v p he hv h => ?_, fun s1 s2 l v hpop he => ?_⟩
  · have hps1 : s1.ps = s.ps := (finds_evalField 2 o).ps_eq he
    have hread : readPrevious l s1 = .ok v s2 := by
      rw [readPrevious_eq previous (congrArg psPrevious hps1)]
      rcases l with r | ea
      · cases r <;> exact hv
      · exact hv
    have hk : moveCodes (psCodes s2.ps) v = codes v := moveCodes_of_ps (((finds_readPrevious l).ps_eq hread).trans hps1) v
    have hrun := moveFromPrevious_of_push he hread hk h
    exact ⟨runInstr_ok hrun, runInstr_ok hrun⟩
  · have hps : s2.ps = s.ps := ((finds_evalField 2 o).ps_eq he).trans (finds_pop.ps_eq hpop)
    have hk : moveCodes (psCodes s2.ps) v = codes v := moveCodes_of_ps hps v
    have hprevious : psPrevious s2.ps = previous := congrArg psPrevious hps
    cases l with
    | reg r =>
      cases r with
      | sp =>
        have hwrite := writePrevious_sp (s := s2) hk
        rw [hprevious] at hwrite
        exact moveToPrevious_completes hpop he hwrite
      | _ => exact moveToPrevious_completes hpop he (writePrevious_reg nofun hk)
    | mem ea =>
      intro p t h
      rw [← hprevious] at h
      exact moveToPrevious_completes hpop he (writePrevious_mem hk h)

end Sys2Proof.Machine

namespace Sys2Proof.Machine

/-! HALT, WAIT, MFPT and RESET, the entry into ODT and BINIT (spec/45_misc_cc_mmu_ps.md R430 to R434,
spec/70_reset_and_hazards.md R812, R832). -/

/-! The entry into ODT. -/

/-- A bus cycle that is only tried answers, and reads nothing but devices after the turn of the DMA masters (R842). -/
theorem attempt_busRead (pa : PAddr) (s : State) : ∃ w u, attempt (busRead pa) s = .ok w u ∧ readOnly s u
    ∧ ∀ g, busGrant s = .ok ⟨⟩ g → DevicesOnly g u := by
  unfold attempt
  cases hr : busRead pa s with
  | ok w u =>
    obtain ⟨hcycle, hread⟩ := busRead_ok hr
    refine ⟨_, _, rfl, hread, fun g hg => ?_⟩
    rw [(busGrant_ok hg).1]
    exact (readCycle_frame hcycle).1
  | error e u =>
    refine ⟨_, _, rfl, ?_, fun g hg => ?_⟩
    · rcases (busRead_error hr).1 with rfl | rfl
      · exact readOnly_refl _
      · exact readOnly_granted s
    · rw [busRead, bind_of_ok hg] at hr
      rw [(readCycle_error hr).1]
      rfl

/-- What the entry into ODT makes of `s`: it is to print the PC between line ends and a prompt (R832), and leaves what a
program has. -/
structure EntersOdt (s t : State) : Prop where
  run : t.run = .halted
  todo : t.odt.todo = puts ([0o15, 0o12] ++ oct6 (s.regs.pc.setWidth 18) ++ [0o15, 0o12, 0o100])
  regs : t.regs = s.regs
  ps : t.ps = s.ps
  mmu : t.mmu = s.mmu
  fpp : t.fpp = s.fpp
  pend : t.pend = s.pend
  mem : ∀ g, busGrant s = .ok ⟨⟩ g → t.mem = g.mem

theorem enterOdt_ok (s : State) : ∃ t, enterOdt s = .ok ⟨⟩ t ∧ EntersOdt s t := by
  obtain ⟨w, u, hu, hread, hdevices⟩ := attempt_busRead consoleRbuf s
  obtain ⟨-, hregs, hps, hmmu, hfpp, -, -, hpend, -, -, -⟩ := readOnly_fields hread
  refine ⟨_, bind_of_ok hu, ?_⟩
  exact { run := rfl, todo := by rw [← hregs]; rfl, regs := hregs, ps := hps, mmu := hmmu, fpp := hfpp, pend := hpend,
          mem := fun g hg => show u.mem = g.mem by rw [hdevices g hg] }

/-! BINIT. -/

/-- Below a clear error field RBUF holds a character alone (R64). -/
theorem rbuf_errors_clear (b : Byte) : (0#1 ++ (0#1 ++ (0#1 ++ (0#1 ++ (0#4 ++ b))))) &&& (0o170000 : Word) = 0 := by
  revert b
  decide

/-- A serial-line unit after BINIT, unless it keeps its UART: ready to send, nothing received, nothing enabled (R68). -/
theorem slu_busInit (x : Slu) : (x.busInit false).rcsr = 0 ∧ (x.busInit false).tcsr = 0o200
    ∧ (x.busInit false).rbufWord &&& 0o170000 = 0 := by
  refine ⟨?_, ?_, rbuf_errors_clear x.rbuf⟩
  · simp [rcsr_eq, Slu.busInit]
  · simp [tcsr_eq, Slu.busInit]

/-- The second unit always takes BINIT, the console unit unless `UART1_NO_INIT` is set (R812, log 47). -/
theorem busInit_slu (s : State) (u : Unit2) (h : u = .second ∨ s.cfg.uart1NoInit = false) :
    (busInit s).slu u = (s.slu u).busInit false := by
  cases u with
  | second => rfl
  | console =>
    have hinit : s.cfg.uart1NoInit = false := h.resolve_left nofun
    exact congrArg (Slu.busInit s.slu1) hinit

/-! The four instructions. -/

/-- HALT in kernel mode with power good (R430). -/
theorem haltAction_enters {s : State} (hmode : s.mode = .kernel) (hbpok : s.lines.bpok = true)
    (htrap : s.cfg.haltTrap = false) : haltAction s = enterOdt s := by
  simp [haltAction, run_bind, hmode, hbpok, htrap]

/-- HALT in kernel mode with power failing (R430, R810). -/
theorem haltAction_waits {s : State} (hmode : s.mode = .kernel) (hbpok : s.lines.bpok = false) :
    haltAction s = .ok ⟨⟩ { s with run := .awaitingBpok } := by
  simp [haltAction, run_bind, hmode, hbpok]

theorem reset_completes (s : State) : exec .reset s = completed (if s.mode = .kernel then busInit s else s) :=
  runInstr_ok (run_modify _ s)

/-- Settles O38: HALT enters ODT, RESET is BINIT in kernel mode, WAIT and MFPT are one update each. -/
theorem controlInstructions : Obligations.ControlInstructions := by
  intro s g hg
  refine ⟨fun hmode hbpok htrap => ?_, runInstr_ok (run_modify _ s), runInstr_ok (writeReg_run .r0 3 s),
    fun hmode => ?_, fun hmode => ?_⟩
  · obtain ⟨t, ht, hin⟩ := enterOdt_ok s
    exact ⟨sampleTrace t, runInstr_ok ((haltAction_enters hmode hbpok htrap).trans ht), hin.run, hin.todo, hin.regs, hin.ps,
      hin.mem g hg, hin.mmu, hin.fpp⟩
  · rw [reset_completes, if_neg hmode]
  · have hslu (u : Unit2) (h : u = .second ∨ s.cfg.uart1NoInit = false) :
        ((busInit s).slu u).rcsr = 0 ∧ ((busInit s).slu u).tcsr = 0o200 := by
      obtain ⟨hrcsr, htcsr, -⟩ := slu_busInit (s.slu u)
      rw [busInit_slu s u h]
      exact ⟨hrcsr, htcsr⟩
    refine ⟨busInit s, by rw [reset_completes, if_pos hmode], rfl, rfl, rfl, rfl, rfl, rfl,
      fun hinit => hslu .console (.inr hinit), hslu .second (.inl rfl)⟩

end Sys2Proof.Machine

namespace Sys2Proof.Machine

/-! The service state (spec/60_exceptions.md R731, R740, R741). -/

/-! A trap sequence ends a WAIT. -/

/-- Whether it answers or stops, the computation leaves the run state. -/
def KeepsRun {α : Type} (x : M α) : Prop := ∀ s, (stateOf (x s)).run = s.run

theorem KeepsRun.bind {α β : Type} {x : M α} {f : α → M β} (hx : KeepsRun x) (hf : ∀ a, KeepsRun (f a)) :
    KeepsRun (x >>= f) := by
  intro s
  have h := hx s
  rw [run_bind]
  cases hr : x s with
  | ok a t =>
    rw [hr] at h
    exact (hf a t).trans h
  | error e t =>
    rw [hr] at h
    exact h

theorem run_of_abandoned {v u : State} (h : Abandoned v u) : u.run = v.run := by
  obtain ⟨n, hu⟩ := h
  rw [hu, grants_eq]

theorem keepsRun_readWordIn (mode : Mode) (va : Word) : KeepsRun (readWordIn mode va) := by
  intro s
  cases h : readWordIn mode va s with
  | ok w t =>
    obtain ⟨-, -, -, -, -, -, hrun, -⟩ := readOnly_fields (readWordIn_ok h)
    exact hrun
  | error e t => exact run_of_abandoned (abandoned_of_readWordIn h)

theorem keepsRun_writeWord (va v : Word) : KeepsRun (writeWord va v) := by
  intro s
  cases h : writeWord va v s with
  | ok p t =>
    obtain ⟨m, -, hs⟩ := writeWordIn_ok (show writeWordIn s.mode va v s = .ok p t from h)
    rcases writeBack_frame (storeMapped_ok hs) with ⟨-, ht⟩ | ⟨-, -, ht⟩ <;> rw [ht] <;> rfl
  | error e t => exact run_of_abandoned (abandoned_of_writeWordIn (show writeWordIn s.mode va v s = .error e t from h))

theorem stateOf_pushEnd (r : EStateM.Result Stop State Bool) : stateOf (pushEnd r) = stateOf r := by
  rcases r with ⟨p, t⟩ | ⟨(k | v | _), t⟩
  · rfl
  · cases k <;> rfl
  · rfl
  · rfl

/-- A push moves R6 and perhaps notes the limit before it writes. -/
theorem keepsRun_pushTrap (kind : TrapKind) (v : Word) : KeepsRun (pushTrap kind v) := by
  intro s
  obtain ⟨n, hsp⟩ := readReg_ok .sp s
  rw [pushTrap_of_trapPushes ⟨_, _, hsp, rfl⟩, stateOf_pushEnd, keepsRun_writeWord]
  split <;> rfl

theorem keepsRun_trapStacks (req : TrapRequest) (old : State) : KeepsRun (trapStacks req old) :=
  (keepsRun_pushTrap _ _).bind fun _ => (keepsRun_pushTrap _ _).bind fun _ => (keepsRun_readWordIn _ _).bind fun _ _ => rfl

theorem trapLoaded_run (kind : TrapKind) (newPs : Word) (s : State) : (trapLoaded kind newPs s).run = s.run := by
  unfold trapLoaded
  dsimp only
  split <;> rfl

/-- A trap sequence sets the machine running before its first reference, and nothing in it stops the machine (R720). -/
theorem trapSequence_run (req : TrapRequest) (s : State) : (stateOf (trapSequence req s)).run = .running := by
  have hvector := keepsRun_readWordIn .kernel (req.vector + 2) { s with run := .running }
  cases hr : readWordIn .kernel (req.vector + 2) { s with run := .running } with
  | ok newPs a =>
    rw [hr] at hvector
    rw [trapSequence_of_ok hr, keepsRun_trapStacks, trapLoaded_run]
    exact hvector
  | error e a =>
    rw [hr] at hvector
    rw [trapSequence_of_error hr]
    exact hvector

theorem performTrap_run (req : TrapRequest) (s : State) : (performTrap req s).run = .running := by
  have hrun := trapSequence_run req s
  rcases performTrap_cases req s with ⟨t, ht, hend⟩ | ⟨e, t, ht, hend⟩ <;> rw [ht] at hrun <;> rw [hend] <;> exact hrun

/-! The requesters, their levels and their vectors. -/

/-- A device's vector is a multiple of 4 below 1000, which the two masked bits leave (R702). -/
theorem busVector_of_multiple_of_four {v : BitVec 9} (h : v.toNat % 4 = 0) :
    (v.setWidth 16 &&& 0o774 : Word) = v.setWidth 16 := by
  have hlow : v[0] = false ∧ v[1] = false := by
    simp only [← BitVec.getLsbD_eq_getElem, ← BitVec.testBit_toNat, Nat.testBit_eq_decide_div_mod_eq]
    exact ⟨decide_eq_false (by omega), decide_eq_false (by omega)⟩
  refine BitVec.eq_of_getLsbD_eq fun i hi => ?_
  interval_cases i <;> simp [hlow]

theorem psPriority_eq (ps : Word) : psPriority ps = ps.toNat / 32 % 8 := by
  rw [psPriority, BitVec.extractLsb'_toNat, Nat.shiftRight_eq_div_pow]

theorem sluRequests_eq (s : State) (u : Unit2) : sluRequests s u = if sluDisabled s.cfg u then []
    else (if (s.slu u).rxReq then [.receiver u] else []) ++ (if (s.slu u).txReq then [.transmitter u] else []) := by
  have hpresent : sluPresent s.cfg u = !sluDisabled s.cfg u := by cases u <;> rfl
  rw [sluRequests, hpresent]
  cases sluDisabled s.cfg u <;> rfl

section Levels

variable {s : State} {level : Nat} {r : Requester}

/-- The highest requesting level is found first, and on it the first requester (R740, R741). -/
theorem firstRequest_of_highest {rest : List Requester} (h4 : 4 ≤ level) (h7 : level ≤ 7)
    (h : requestsAt s level = r :: rest) (habove : ∀ above, level < above → above ≤ 7 → requestsAt s above = []) :
    firstRequest s = some (level, r) := by
  interval_cases level <;> simp [firstRequest, h, habove]

theorem requestsAt_of_firstRequest (h : firstRequest s = some (level, r)) : level ≤ 7 ∧ requestsAt s level ≠ [] := by
  obtain ⟨found, hmem, hfound⟩ := List.exists_of_findSome?_eq_some h
  obtain ⟨q, hq, heq⟩ := Option.map_eq_some_iff.mp hfound
  cases heq
  refine ⟨?_, fun hnil => ?_⟩
  · simp only [List.mem_cons, List.not_mem_nil, or_false] at hmem
    omega
  · rw [hnil] at hq
    cases hq

end Levels

/-! What the service state decides. -/

section Decisions

variable {s : State}

theorem service_trace (h : s.pend.trace = true) : service s = .acted
    (performTrap { vector := 0o14, kind := .ordinary } { s with pend := { s.pend with trace := false } }) :=
  if_pos h

theorem service_stackOverflow (htrace : s.pend.trace = false) (h : s.pend.stkovf = true) : service s = .acted
    (performTrap { vector := 0o4, kind := .stackOverflow } { s with pend := { s.pend with stkovf := false } }) := by
  rw [service, if_neg (Bool.not_eq_true _ |>.mpr htrace), if_pos h]

theorem service_powerFail (htrace : s.pend.trace = false) (hstkovf : s.pend.stkovf = false) (h : s.pend.pwrdwn = true) :
    service s = .acted
      (performTrap { vector := 0o24, kind := .ordinary } { s with pend := { s.pend with pwrdwn := false } }) := by
  rw [service, if_neg (Bool.not_eq_true _ |>.mpr htrace), if_neg (Bool.not_eq_true _ |>.mpr hstkovf), if_pos h]

/-- No trap of the service state is pending. -/
def State.noneDue (s : State) : Prop := s.pend.trace = false ∧ s.pend.stkovf = false ∧ s.pend.pwrdwn = false

/-- With no trap pending, a request above the priority of the PS is acknowledged (R740). -/
theorem service_request {level : Nat} {r : Requester} (hnone : s.noneDue) (hfirst : firstRequest s = some (level, r))
    (h : psPriority s.ps < level) : service s = serviceInterrupt r s := by
  obtain ⟨htrace, hstkovf, hpwrdwn⟩ := hnone
  simp [service, htrace, hstkovf, hpwrdwn, hfirst, h]

/-- With no trap pending and no request above the priority, the halt line is looked at (R731). -/
theorem service_noRequest (hnone : s.noneDue)
    (h : ∀ level, psPriority s.ps < level → level ≤ 7 → requestsAt s level = []) : service s = serviceHalt s := by
  obtain ⟨htrace, hstkovf, hpwrdwn⟩ := hnone
  cases hfirst : firstRequest s with
  | none => simp [service, htrace, hstkovf, hpwrdwn, hfirst]
  | some found =>
    obtain ⟨level, r⟩ := found
    obtain ⟨hle, hrequests⟩ := requestsAt_of_firstRequest hfirst
    have hmasked : ¬psPriority s.ps < level := fun hlt => hrequests (h level hlt hle)
    simp [service, htrace, hstkovf, hpwrdwn, hfirst, hmasked]

theorem serviceInterrupt_vector {r : Requester} {v : Word} (h : requestVector s.cfg r = some v) :
    serviceInterrupt r s = .acted (performTrap { vector := v, kind := .ordinary } (withdraw r s)) := by
  rw [serviceInterrupt, h]

theorem serviceInterrupt_noVector {r : Requester} (h : requestVector s.cfg r = none) :
    serviceInterrupt r s = .fetch { s with run := .running } := by
  rw [serviceInterrupt, h]

theorem haltLineAsserted_iff : haltLineAsserted s = true ↔ s.lines.bhalt = true ∨ s.lines.breakHalt = true := by
  rw [haltLineAsserted, Bool.or_eq_true]

theorem serviceHalt_asserted {t : State} (h : haltLineAsserted s = true) (ht : enterOdt s = .ok ⟨⟩ t) :
    serviceHalt s = .acted t := by
  rw [serviceHalt, if_pos h, ht]

theorem serviceHalt_clear (h : haltLineAsserted s = false) :
    serviceHalt s = if s.run = .waiting then .acted s else .fetch s := by
  rw [serviceHalt, if_neg (Bool.not_eq_true _ |>.mpr h)]

end Decisions

/-- Settles O23: the conditions of R731 one below the other, each with the decision the service state makes for it. -/
theorem serviceState : Obligations.ServiceState := by
  refine ⟨performTrap_run, fun cfg r v => ?_, fun s => ?_⟩
  · intro second
    refine ⟨rfl, rfl, rfl, rfl, rfl, fun h => ?_, fun h hfour => ?_⟩
    · rw [requestVector, h, Option.map_none]
    · rw [requestVector, h, Option.map_some, busVector_of_multiple_of_four hfour]
  · intro bus unit
    refine ⟨⟨rfl, rfl, rfl, ?_⟩, ⟨rfl, fun u => ⟨rfl, rfl⟩, fun r => rfl⟩, service_trace, service_stackOverflow,
      service_powerFail, fun htrace hstkovf hpwrdwn => ?_⟩
    · show sluRequests s .console ++ (sluRequests s .second ++ busRequests s 4) = _
      rw [sluRequests_eq, sluRequests_eq]
      rfl
    have hnone : s.noneDue := ⟨htrace, hstkovf, hpwrdwn⟩
    rw [← psPriority_eq]
    refine ⟨fun level r rest h4 h7 hr habove hpri => ?_, fun hquiet => ?_⟩
    · have hservice := service_request hnone (firstRequest_of_highest h4 h7 hr habove) hpri
      exact ⟨fun v hv => hservice.trans (serviceInterrupt_vector hv), fun hv => hservice.trans (serviceInterrupt_noVector hv)⟩
    · have hservice := service_noRequest hnone hquiet
      refine ⟨fun hhalt => ?_, fun hbhalt hbreak => ?_⟩
      · obtain ⟨t, ht, hin⟩ := enterOdt_ok s
        exact ⟨t, ht, hservice.trans (serviceHalt_asserted (haltLineAsserted_iff.mpr hhalt) ht), hin.run, hin.regs, hin.ps,
          hin.mmu, hin.pend⟩
      · have hclear : haltLineAsserted s = false := by rw [haltLineAsserted, hbhalt, hbreak]; rfl
        rw [hservice, serviceHalt_clear hclear]
        exact ⟨fun hrun => if_pos hrun, fun hrun => if_neg (by rw [hrun]; exact nofun)⟩

end Sys2Proof.Machine

namespace Sys2Proof.Machine

/-! Power going and coming (spec/70_reset_and_hazards.md R800 to R812, spec/60_exceptions.md R711, R754). -/

/-! Steps by their input. -/

/-- Only the loss of dc power cuts a step short. -/
theorem step_of_input {s : State} {i : Input} {rest : List Input} (h : s.inputs = i :: rest)
    (hpower : ∀ n, i ≠ .powerDown n) : step s = runStateStep (tick s) := by
  unfold step
  rw [h]
  cases i with
  | powerDown n => exact absurd rfl (hpower n)
  | _ => rfl

theorem step_powerDown {s : State} {n : Nat} {rest : List Input} (h : s.inputs = .powerDown n :: rest) :
    step s = .next (cutShort n s) := by
  unfold step
  rw [h]

/-- Of memory and the bus a step cut short keeps what its completed cycles have made of them (R810, log 42). -/
theorem cutShort_of_next {s u : State} {n : Nat}
    (h : runStateStep ((tick { s with inputs := [] }).losingPower n) = .next u) :
    cutShort n s = { tick s with mem := u.mem, bus := { u.bus with left := none } } := by
  rw [cutShort, h]

theorem runStateStep_poweredDown {s : State} (h : s.run = .poweredDown) : runStateStep s = .next s := by
  rw [runStateStep, h]

theorem runStateStep_awaitingBpok {s : State} (h : s.run = .awaitingBpok) :
    runStateStep s = .next (if s.lines.bpok then powerUpAction s else s) := by
  rw [runStateStep, h]

/-- The loss and the return of dc power are the inputs that change the run state. -/
theorem applyInput_run {i : Input} (hup : i ≠ .powerUp) (hdown : ∀ n, i ≠ .powerDown n) (s : State) :
    (applyInput i s).run = s.run := by
  cases i with
  | powerUp => exact absurd rfl hup
  | powerDown n => exact absurd rfl (hdown n)
  | receive u c frm par ovr =>
    unfold applyInput
    dsimp only
    split <;> cases u <;> rfl
  | clockEdge =>
    unfold applyInput
    dsimp only
    split <;> rfl
  | _ => rfl

/-- The tick moves the transmitters and reaches nothing a program has. -/
theorem ticked_program (s : State) : s.ticked.run = s.run ∧ s.ticked.mmu = s.mmu ∧ s.ticked.mem = s.mem
    ∧ s.ticked.pend = s.pend := by
  unfold State.ticked
  rw [transmitted_frame]
  exact ⟨rfl, rfl, rfl, rfl⟩

/-! Characters sent. -/

theorem busInit_sent (s : State) (u : Unit2) : ((busInit s).slu u).sent = (s.slu u).sent := by
  have hunit (x : Slu) (keep : Bool) : (x.busInit keep).sent = x.sent := by cases keep <;> rfl
  cases u with
  | console => exact hunit s.slu1 s.cfg.uart1NoInit
  | second => exact hunit s.slu2 false

theorem powerDown_slu (s : State) (u : Unit2) : (powerDown s).slu u = (busInit s).slu u := by
  cases u <;> rfl

theorem powerUp_sent (s : State) (u : Unit2) : ((powerUp s).slu u).sent = (s.slu u).sent := by
  rw [powerUp, busInit_sent]
  cases u <;> rfl

/-- No input puts a character on the line: the transmitters do (R754). -/
theorem applyInput_sent (i : Input) (s : State) (u : Unit2) : ((applyInput i s).slu u).sent = (s.slu u).sent := by
  cases i with
  | receive v c frm par ovr =>
    have hsent : ((s.withSlu v ((s.slu v).receive c frm par ovr)).slu u).sent = (s.slu u).sent := by
      rw [slu_withSlu]
      split
      · rename_i h
        rw [h]
        rfl
      · rfl
    unfold applyInput
    dsimp only
    split
    · cases u <;> exact hsent
    · exact hsent
  | clockEdge =>
    unfold applyInput
    dsimp only
    split <;> cases u <;> rfl
  | powerDown n => rw [applyInput, powerDown_slu, busInit_sent]
  | powerUp =>
    unfold applyInput
    dsimp only
    split
    · exact powerUp_sent s u
    · rfl
  | _ => cases u <;> rfl

theorem tick_sent_poweredDown {s : State} (h : s.run = .poweredDown) (u : Unit2) :
    ((tick s).slu u).sent = (s.slu u).sent := by
  rw [tick_eq, applyInput_sent, ticked_slu, transmitted_poweredDown s h]

/-! BINIT at the loss of power and at its return (R812). -/

/-- A machine without power comes up where its input says so. -/
theorem tick_of_powerUp {s : State} {rest : List Input} (hrun : s.run = .poweredDown) (h : s.inputs = .powerUp :: rest) :
    tick s = powerUp s.ticked := by
  rw [tick_of_inputs h]
  exact if_pos ((ticked_program s).1.trans hrun)

theorem powerUp_slu (s : State) (u : Unit2) : ((powerUp s).slu u).rcsr = 0 ∧ ((powerUp s).slu u).tcsr = 0o200 := by
  have hunit (x : Slu) (n : Nat) (keep : Bool) :
      ((x.powerUp n).busInit keep).rcsr = 0 ∧ ((x.powerUp n).busInit keep).tcsr = 0o200 := by
    cases keep <;> simp [rcsr_eq, tcsr_eq, Slu.busInit, Slu.powerUp, Slu.reset]
  cases u with
  | console => exact hunit s.slu1 s.free s.cfg.uart1NoInit
  | second => exact hunit s.slu2 (s.free + 2) false

theorem powerUp_mem {s : State} (h : s.cfg.nonvolatile = true) : (powerUp s).mem = s.mem := if_pos h

/-! The power-up action (R803). -/

/-- The state in which the power-up action begins. -/
def State.acting (s : State) : State := { s with ps := 0, run := .running }

/-- What the end of an action leaves: a reference that failed has made its trap sequence due (D57, log 41). -/
def actionEnd : EStateM.Result Stop State Unit → State
  | .ok _ t => t
  | .error stop t => { t with pend := { t.pend with trap := some stop.request } }

/-- The end of modes 0 and 2: ODT when the halt line is asserted, else the machine runs. -/
def haltOrRun : M Unit := do
  if haltLineAsserted (← get) then enterOdt else pure ()

section Actions

variable {s : State}

theorem powerUpAction_mode0 (h : s.cfg.powerUpMode = .mode0) : powerUpAction s = actionEnd (loadRestart s.acting) := by
  simp only [powerUpAction, h]
  rfl

theorem powerUpAction_mode1 (h : s.cfg.powerUpMode = .mode1) : powerUpAction s = actionEnd (enterOdt s.acting) := by
  simp only [powerUpAction, h]
  rfl

theorem powerUpAction_mode2 (h : s.cfg.powerUpMode = .mode2) : powerUpAction s = actionEnd (loadBootstrap s.acting) := by
  simp only [powerUpAction, h]
  rfl

theorem powerUpAction_mode3 (h : s.cfg.powerUpMode = .mode3) :
    powerUpAction s = performTrap { vector := 0o10, kind := .ordinary } s.acting := by
  simp only [powerUpAction, h]
  rfl

theorem haltOrRun_runs (h : haltLineAsserted s = false) : haltOrRun s = .ok ⟨⟩ s := by
  simp only [haltOrRun, run_bind, run_get, h, Bool.false_eq_true, if_false, run_pure]

theorem haltOrRun_halts (h : haltLineAsserted s = true) : ∃ t, haltOrRun s = .ok ⟨⟩ t ∧ EntersOdt s t := by
  simp only [haltOrRun, run_bind, run_get, h, if_true]
  exact enterOdt_ok s

/-- Mode 0, both of its words read (R803). -/
theorem loadRestart_run {w x : State} {pc ps : Word} (hpc : busRead 0o24 s = .ok pc w)
    (hps : busRead 0o26 { w with regs := { w.regs with pc := pc } } = .ok ps x) :
    loadRestart s = haltOrRun { x with ps := ps &&& 0o170777 } :=
  (bind_of_ok hpc).trans ((bind_of_ok (run_modify _ w)).trans ((bind_of_ok hps).trans (bind_of_ok (run_modify _ x))))

theorem loadRestart_error {u : State} {e : Stop} (h : busRead 0o24 s = .error e u
    ∨ ∃ v w, busRead 0o24 s = .ok v w ∧ busRead 0o26 { w with regs := { w.regs with pc := v } } = .error e u) :
    loadRestart s = .error e u := by
  rcases h with hpc | ⟨v, w, hpc, hps⟩
  · exact bind_of_error hpc
  · exact (bind_of_ok hpc).trans ((bind_of_ok (run_modify _ w)).trans (bind_of_error hps))

/-- The state mode 0 has loaded from memory when no DMA master intervenes. -/
def State.restarted (s : State) : State :=
  { s.acting with
    regs := { s.regs with pc := s.mem.readWord (wordPlace s 0o24) }
    ps := s.mem.readWord (wordPlace s 0o26) &&& 0o170777 }

theorem loadRestart_plain (hq : s.quiet = true) (h24 : plainMemory s 0o24 = true) (h26 : plainMemory s 0o26 = true) :
    loadRestart s.acting = haltOrRun s.restarted :=
  loadRestart_run (busRead_plain (s := s.acting) (busGrant_quiet hq) h24)
    (busRead_plain (s := { s.acting with regs := { s.regs with pc := s.mem.readWord (wordPlace s 0o24) } })
      (busGrant_quiet hq) h26)

/-- The state mode 2 has loaded. -/
def State.bootstrapped (s : State) : State := { s.acting with regs := { s.regs with pc := 0o173000 }, ps := 0o340 }

theorem loadBootstrap_run (s : State) : loadBootstrap s.acting = haltOrRun s.bootstrapped := rfl

theorem powerUpAction_restarts (h : s.cfg.powerUpMode = .mode0) (hq : s.quiet = true) (h24 : plainMemory s 0o24 = true)
    (h26 : plainMemory s 0o26 = true) (hhalt : haltLineAsserted s = false) : powerUpAction s = s.restarted := by
  rw [powerUpAction_mode0 h, loadRestart_plain hq h24 h26, haltOrRun_runs (s := s.restarted) hhalt]
  rfl

theorem powerUpAction_restarts_in_odt (h : s.cfg.powerUpMode = .mode0) (hq : s.quiet = true)
    (h24 : plainMemory s 0o24 = true) (h26 : plainMemory s 0o26 = true) (hhalt : haltLineAsserted s = true) :
    EntersOdt s.restarted (powerUpAction s) := by
  obtain ⟨t, ht, hin⟩ := haltOrRun_halts (s := s.restarted) hhalt
  rw [powerUpAction_mode0 h, loadRestart_plain hq h24 h26, ht]
  exact hin

theorem powerUpAction_aborts {u : State} {k : AbortKind} (h : s.cfg.powerUpMode = .mode0)
    (habort : loadRestart s.acting = .error (.abort k) u) :
    powerUpAction s = { u with pend := { u.pend with trap := some (Stop.abort k).request } } := by
  rw [powerUpAction_mode0 h, habort]
  rfl

theorem powerUpAction_odt (h : s.cfg.powerUpMode = .mode1) : EntersOdt s.acting (powerUpAction s) := by
  obtain ⟨t, ht, hin⟩ := enterOdt_ok s.acting
  rw [powerUpAction_mode1 h, ht]
  exact hin

theorem powerUpAction_boots (h : s.cfg.powerUpMode = .mode2) (hhalt : haltLineAsserted s = false) :
    powerUpAction s = s.bootstrapped := by
  rw [powerUpAction_mode2 h, loadBootstrap_run, haltOrRun_runs (s := s.bootstrapped) hhalt]
  rfl

theorem powerUpAction_boots_in_odt (h : s.cfg.powerUpMode = .mode2) (hhalt : haltLineAsserted s = true) :
    EntersOdt s.bootstrapped (powerUpAction s) := by
  obtain ⟨t, ht, hin⟩ := haltOrRun_halts (s := s.bootstrapped) hhalt
  rw [powerUpAction_mode2 h, loadBootstrap_run, ht]
  exact hin

end Actions

/-! The steps in which power goes, stays away, comes back and is waited for. -/

section Steps

variable {s : State}

/-- The loss of power: the completed cycles of the step on memory and the bus, BINIT on the rest (R810, R812). -/
theorem step_loses_power {n : Nat} {rest : List Input} (h : s.inputs = .powerDown n :: rest) : ∃ u,
    runStateStep ((tick { s with inputs := [] }).losingPower n) = .next u
      ∧ step s = .next { tick s with mem := u.mem, bus := { u.bus with left := none } } := by
  obtain ⟨u, hu⟩ := runStateStep_next ((tick { s with inputs := [] }).losingPower n)
  exact ⟨u, hu, by rw [step_powerDown h, cutShort_of_next hu]⟩

theorem tick_loses_power {n : Nat} {rest : List Input} (h : s.inputs = .powerDown n :: rest) :
    (tick s).run = .poweredDown ∧ (tick s).mmu = { s.mmu with sr0 := 0, sr3 := 0 } ∧ (tick s).lines.requests = []
      ∧ (tick s).board = { pcr := 0, rwr := 0, display := 0, lcie := false, eventFlg := false } := by
  obtain ⟨-, hmmu, -, -⟩ := ticked_program s
  rw [tick_of_inputs h, ← hmmu]
  exact ⟨rfl, rfl, rfl, rfl⟩

theorem tick_loses_power_slu {n : Nat} {rest : List Input} (h : s.inputs = .powerDown n :: rest) {u : Unit2}
    (hu : u = .second ∨ s.cfg.uart1NoInit = false) : ((tick s).slu u).rcsr = 0 ∧ ((tick s).slu u).tcsr = 0o200
      ∧ ((tick s).slu u).rbufWord &&& 0o170000 = 0 := by
  rw [← (ticked_frame s).1] at hu
  rw [tick_of_inputs h, applyInput, powerDown_slu, busInit_slu _ u hu]
  exact slu_busInit _

/-- Without power every input but its return changes nothing of the run state, and the step ends there. -/
theorem step_without_power {i : Input} {rest : List Input} (hrun : s.run = .poweredDown) (h : s.inputs = i :: rest)
    (hup : i ≠ .powerUp) (hdown : ∀ n, i ≠ .powerDown n) : step s = .next (tick s) ∧ (tick s).run = .poweredDown := by
  obtain ⟨hticked, -, -, -⟩ := ticked_program s
  have htick : (tick s).run = .poweredDown := by rw [tick_of_inputs h, applyInput_run hup hdown, hticked, hrun]
  exact ⟨(step_of_input h hdown).trans (runStateStep_poweredDown htick), htick⟩

theorem step_awaitingBpok (hrun : (tick s).run = .awaitingBpok) :
    step s = .next (if (tick s).lines.bpok then powerUpAction (tick s) else tick s) := by
  rw [← runStateStep_awaitingBpok hrun]
  cases hi : s.inputs with
  | nil =>
    have hs : s.run = .awaitingBpok := by
      rw [tick_eq, hi] at hrun
      exact (ticked_program s).1.symm.trans hrun
    rw [step_of_no_inputs hi, if_neg (by rw [hs]; exact nofun)]
  | cons i rest =>
    refine step_of_input hi fun n hn => ?_
    rw [(tick_loses_power (hn ▸ hi)).1] at hrun
    cases hrun

/-- BPOK H negated posts the power fail once (R711). -/
theorem tick_bpok {b : Bool} {rest : List Input} (h : s.inputs = .bpok b :: rest) :
    (tick s).lines.bpok = b ∧ (tick s).pend.pwrdwn = (s.pend.pwrdwn || (s.lines.bpok && !b)) := by
  obtain ⟨-, -, -, hpend⟩ := ticked_program s
  obtain ⟨-, -, hlines⟩ := ticked_frame s
  rw [tick_of_inputs h, ← hpend, ← hlines]
  exact ⟨rfl, rfl⟩

end Steps

/-- Settles O39: the loss of power, the steps without it, its return and the action of each mode by their own lemmas. -/
theorem powerUpAndDown : Obligations.PowerUpAndDown := by
  intro s acting haltLine
  refine ⟨fun n rest h => ?_, tick_sent_poweredDown, fun h => if_pos h, fun n h => ?_,
    fun i rest hrun h hup hdown => step_without_power hrun h hup hdown, fun rest hrun h => ?_, step_awaitingBpok,
    fun hmode hbpok => runInstr_ok (haltAction_waits hmode hbpok), fun asserted rest h => tick_bpok h,
    fun hmode hq => ⟨powerUpAction_restarts hmode hq, fun h24 h26 hhalt => ?_, fun k u habort => ?_⟩,
    fun hmode => ?_, fun hmode => ⟨powerUpAction_boots hmode, fun hhalt => ?_⟩, powerUpAction_mode3⟩
  · obtain ⟨u, hu, hstep⟩ := step_loses_power h
    obtain ⟨hrun, hmmu, hrequests, hboard⟩ := tick_loses_power h
    exact ⟨u, hu, hstep, hrun, hmmu, hrequests, hboard, fun x hx => tick_loses_power_slu h hx⟩
  · refine ⟨s.granted, by rw [busGrant_run, h]; rfl, ?_⟩
    show s.bus.left.map (· - 1) = some n
    rw [h]
    rfl
  · intro u
    have hu : u = powerUp s.ticked := tick_of_powerUp hrun h
    obtain ⟨hcfg, -, hlines⟩ := ticked_frame s
    obtain ⟨-, -, hmem, -⟩ := ticked_program s
    have hbpok : (tick s).lines.bpok = s.lines.bpok := by rw [tick_of_powerUp hrun h, ← hlines]; rfl
    refine ⟨?_, ?_⟩
    · rw [step_awaitingBpok (by rw [tick_of_powerUp hrun h]; rfl), hbpok]
    · clear_value u
      subst hu
      exact ⟨rfl, rfl, rfl, rfl, rfl, powerUp_slu _, rfl,
        fun hkept => (powerUp_mem (by rw [hcfg, hkept])).trans hmem, hcfg⟩
  · have hin := powerUpAction_restarts_in_odt hmode hq h24 h26 hhalt
    exact ⟨hin.run, hin.pend, hin.regs, hin.ps⟩
  · rw [powerUpAction_aborts hmode (loadRestart_error habort)]
    cases k <;> rfl
  · have hin := powerUpAction_odt hmode
    exact ⟨hin.run, hin.ps, hin.regs, hin.pend⟩
  · have hin := powerUpAction_boots_in_odt hmode hhalt
    exact ⟨hin.run, hin.regs, hin.ps, hin.pend⟩

end Sys2Proof.Machine

namespace Sys2Proof.Machine

/-! What the operations of the floating-point instructions leave (spec/46_fp_state.md R477 to R492), and how a floating-point
instruction comes to its end. -/

theorem toWord_and_low (k : Codes) : k.toWord &&& 0o17 = k.toWord := by
  obtain ⟨n, z, v, c⟩ := k
  revert n z v c
  decide

theorem mergeFps_run (mask v : Word) (s : State) :
    mergeFps mask v s = .ok ⟨⟩ { s with fpp := { s.fpp with fps := merge mask v s.fpp.fps } } := rfl

theorem setFcc_run (k : Codes) (s : State) : setFcc k s = .ok ⟨⟩ (fccSet k s) := by
  rw [setFcc, mergeFps_run, merge, toWord_and_low]
  rfl

theorem writeAc_run (fmt : Fmt) (n : Fin 6) (v : Quad) (s : State) :
    writeAc fmt n v s = .ok ⟨⟩ (accWritten fmt n v s) := rfl

theorem fpZero_eq (v : Quad) : fpZero v = (v.extractLsb' 55 8 == 0) := by
  rw [fpZero, fpExp, Bool.eq_iff_iff, beq_iff_eq, beq_iff_eq]
  exact BitVec.toNat_inj (y := 0#8)

theorem fpZero_iff (v : Quad) : fpZero v = true ↔ fpExp v = 0 := beq_iff_eq

theorem fpSign_eq (v : Quad) : fpSign v = v.getLsbD 63 := BitVec.msb_eq_getLsbD_last v

theorem fccOf_eq (v : Quad) (fv : Bool) : fccOf v fv = fccOfValue v fv := by
  rw [fccOf, fccOfValue, fpZero_eq, fpSign_eq]

/-- A -0 is undefined unless an accumulator holds it (R489). -/
theorem undefinedTrap_eq (md : FpModes) (l : FpLoc) (v : Quad) :
    undefinedTrap md l v = (md.undefinedTraps && !l.isAcc && (v.getLsbD 63 && v.extractLsb' 55 8 == 0)) := by
  rw [undefinedTrap, fpUndefined, fpZero_eq, fpSign_eq, Bool.and_comm (_ == _)]

theorem finds_readFp (fmt : Fmt) (a : Word) : Finds (readFp fmt a) := by
  refine (finds_readWord a).bind fun w0 => (finds_readWord (a + 2)).bind fun w1 => ?_
  cases fmt with
  | f => exact finds_pure _
  | d => exact (finds_readWord _).bind fun w2 => (finds_readWord _).bind fun w3 => finds_pure _

theorem finds_fpSource (fmt : Fmt) (o : Operand) : Finds (fpSource fmt o) := by
  refine .ite ?_ ((finds_evalField _ o).bind fun l => ?_)
  · exact fun s x t h => (finds_fetchWord.bind fun w => finds_pure _) s x t h
  · cases l with
    | reg r => exact finds_pure _
    | mem ea => exact (finds_readFp fmt ea).bind fun v => finds_pure _

theorem finds_operandWord (o : Operand) : Finds (operandWord o) := (finds_evalField 2 o).bind finds_readLoc

theorem Finds.fpp_eq {α : Type} {x : M α} (hx : Finds x) {s t : State} {a : α} (h : x s = .ok a t) : t.fpp = s.fpp :=
  (operandOnly_fields (hx s a t h)).2

section

variable {s t : State} {fmt : Fmt} {o : Operand} {l : FpLoc} {v : Quad}

/-- Reading a floating-point operand leaves the floating-point registers. -/
theorem fpSourceAt_fpp (h : fpSourceAt fmt o s l v t) : t.fpp = s.fpp := by
  rw [fpSourceAt] at h
  split at h
  · rw [h.1]
  · exact (finds_fpSource fmt o).fpp_eq h

theorem accRead_congr (h : t.fpp = s.fpp) (n : Fin 6) : accRead fmt n t = accRead fmt n s := by
  rw [accRead, accRead, h]

variable {m : M Unit} {body : Word → FpModes → M Unit} {e : FpError}

/-- With the option installed a floating-point instruction is its meaning (spec/30_encoding.md R217). -/
theorem fpInstr_run (hp : s.cfg.fpPresent = true) :
    fpInstr body s = body (s.regs.pc - 2) (fpModes s.fpp.fps) s := by
  simp only [fpInstr, run_bind, run_get, hp, if_true]

/-- The end of an instruction by an exception is the one of R490 and R492. -/
theorem runInstr_fpException (h : m s = fpException (s.regs.pc - 2) e t) : runInstr m s = fpRaised s t e := by
  have hfid : (t.fpp.fps ||| 0o100000).getLsbD 14 = t.fpp.fps.getLsbD 14 := by
    rw [BitVec.getLsbD_or]
    exact Bool.or_false _
  simp only [fpException, run_bind, run_modify, run_get, hfid] at h
  rw [fpRaised]
  split at h
  · rename_i hf
    rw [if_pos hf]
    exact runInstr_ok h
  · rename_i hf
    rw [if_neg hf]
    exact runInstr_trap h

/-- An instruction that ends by what was delivered: completed, or with the exception delivered (R488). -/
theorem runInstr_fpRaise {err : Option FpError} (h : m s = fpRaise (s.regs.pc - 2) err t) :
    (err = none → runInstr m s = completed t) ∧ ∀ e, err = some e → runInstr m s = fpRaised s t e := by
  refine ⟨?_, ?_⟩
  · rintro rfl
    exact runInstr_ok h
  · rintro e rfl
    exact runInstr_fpException h

/-- The state after a delivered result is stored and the codes are set from it (R488). -/
def delivered (fmt : Fmt) (n : Fin 6) (r : Delivered) (t : State) : State :=
  fccSet (fccOfValue r.value r.fv) (accWritten fmt n r.value t)

theorem deliverTo_run (fea : Word) (fmt : Fmt) (n : Fin 6) (r : Delivered) (t : State) :
    deliverTo fea fmt n r t = fpRaise fea r.error (delivered fmt n r t) := by
  simp only [deliverTo, run_bind, writeAc_run, setFcc_run, fccOf_eq]
  rfl

end

end Sys2Proof.Machine

namespace Sys2Proof.Machine

/-! The moves of floating-point status (spec/47_fp_instructions.md R520 to R527). -/

/-- A PS<3:0> made of the codes of a word is the low end of that word (R520). -/
theorem psCodes_toWord (w : Word) : (psCodes w).toWord = w &&& 0o17 := by
  refine BitVec.eq_of_getLsbD_eq fun i hi => ?_
  rw [BitVec.getLsbD_and]
  simp only [Codes.toWord, psCodes, psN, psZ, psV, psC, BitVec.getLsbD_append, BitVec.getLsbD_ofBool]
  interval_cases i <;> simp

theorem psWithCodes_psCodes (ps w : Word) : psWithCodes ps (psCodes w) = (ps &&& 0o177760) ||| (w &&& 0o17) := by
  rw [psWithCodes, merge, toWord_and_low, psCodes_toWord]
  rfl

theorem merge_zeros (mask old : Word) : merge mask 0 old = old &&& ~~~mask := by
  rw [merge, show (0 : Word) &&& mask = 0 from BitVec.zero_and]
  exact BitVec.or_zero

theorem merge_ones (mask old : Word) : merge mask mask old = old ||| mask := by
  refine BitVec.eq_of_getLsbD_eq fun i hi => ?_
  simp only [merge, BitVec.getLsbD_or, BitVec.getLsbD_and, BitVec.getLsbD_not, hi, decide_true, Bool.true_and]
  cases old.getLsbD i <;> cases mask.getLsbD i <;> rfl

theorem merge_all (v old : Word) : merge 0o177777 v old = v := by
  rw [merge, show (v &&& 0o177777 : Word) = v from BitVec.and_allOnes, show (~~~0o177777 : Word) = 0 from rfl]
  exact (congrArg (· ||| v) BitVec.and_zero).trans BitVec.zero_or

theorem isImmediate_of_ne {o : Operand} (h : o ≠ ⟨.autoinc, .pc⟩) : isImmediate o = false := by
  obtain ⟨mode, r⟩ := o
  rw [isImmediate, Bool.and_eq_false_iff, beq_eq_false_iff_ne, beq_eq_false_iff_ne, ← not_and_or]
  rintro ⟨rfl, rfl⟩
  exact h rfl

section

variable {s u t : State} {o : Operand} {l : LongLoc} {p : Bool}

theorem longLoc_memory {a : Word} (ho : o ≠ ⟨.autoinc, .pc⟩) (h : evalField 4 o s = .ok (.mem a) u) :
    longLoc o s = .ok (.mem a) u := by
  rw [longLoc, isImmediate_of_ne ho]
  exact bind_of_ok h

/-- A word reference answers only when its check does, so that the immediate destination may be checked before or after the
step of the PC (R483). -/
theorem storeNext_of_writeWord {v : Word}
    (h : writeWord s.regs.pc v { s with regs := { s.regs with pc := s.regs.pc + 2 } } = .ok p t) :
    storeNext v s = .ok p t := by
  obtain ⟨m, hm, hs⟩ := writeWordIn_ok h
  have hcheck : translate s.mode s.regs.pc true s = .ok m s := translate_marked (page := none) hm rfl
  rw [storeNext_run, hcheck]
  exact hs

theorem writeLong_memory {hi lo a : Word} {q : Bool} (h : writeWord a hi s = .ok p t)
    (h' : writeWord (a + 2) lo t = .ok q u) : writeLong hi lo (.mem a) s = .ok (p || q) u :=
  (bind_of_ok h).trans (bind_of_ok h')

end

/-- Settles O40: each instruction is one update of the floating-point registers or of the PS, or one operand read or written;
finding the operand leaves the floating-point registers. -/
theorem fpStatus : Obligations.FpStatus := by
  intro s o hp fpsIs
  have runs {body : Word → FpModes → M Unit} {t : State} (h : body (s.regs.pc - 2) (fpModes s.fpp.fps) s = .ok ⟨⟩ t) :
      runInstr (fpInstr body) s = completed t := runInstr_ok ((fpInstr_run hp).trans h)
  have merges {mask v w : Word} (h : merge mask v s.fpp.fps = w) :
      runInstr (fpInstr fun _ _ => mergeFps mask v) s = completed (fpsIs w s) :=
    (runs (mergeFps_run mask v s)).trans (by rw [h])
  refine ⟨by decide +kernel, ?cfcc, ?setf, ?setd, ?seti, ?setl, fun v t h => ?ldfps, fun l u p t he h => ?stfps,
    fun l u p t he h => ?stst, fun r => rfl, rfl, fun a u ho h => longLoc_memory ho h,
    fun hi lo v => ⟨fun r => rfl, fun p t h => storeNext_of_writeWord h, fun a p t q u h h' => writeLong_memory h h'⟩⟩
  case cfcc => exact (runs (run_modify _ s)).trans (by rw [psWithCodes_psCodes])
  case setf => exact merges (merge_zeros _ _)
  case setd => exact merges (merge_ones _ _)
  case seti => exact merges (merge_zeros _ _)
  case setl => exact merges (merge_ones _ _)
  case ldfps =>
    refine (runs ((bind_of_ok h).trans (mergeFps_run 0o177777 (v &&& ldfpsMask) t))).trans ?_
    rw [merge_all]
    rfl
  case stfps =>
    rw [← (finds_evalField 2 o).fpp_eq he] at h
    exact runs ((bind_of_ok he).trans ((bind_of_ok (run_get u)).trans (bind_of_ok h)))
  case stst =>
    rw [← (finds_longLoc o).fpp_eq he] at h
    exact runs ((bind_of_ok he).trans ((bind_of_ok (run_get u)).trans (bind_of_ok h)))

end Sys2Proof.Machine

namespace Sys2Proof.Machine

/-! One floating value loaded, stored, cleared, tested, and its sign changed (spec/47_fp_instructions.md R530 to R535); a
floating value in memory (spec/46_fp_state.md R472, R484). -/

/-! Words of a value in memory. -/

/-- With the MMU disabled an address that is memory is itself (spec/20_memory.md R110). -/
theorem toNat_lt_of_plainMemory {s : State} {a : Word} (h : plainMemory s (unmapped a) = true) : a.toNat < 0o160000 := by
  obtain ⟨hio, -, -⟩ := plainMemory_iff.mp h
  rw [isIoPage, decide_eq_false_iff_not, unmapped_toNat] at hio
  split at hio <;> omega

theorem wordPlace_unmapped {s : State} {a : Word} (h : plainMemory s (unmapped a) = true) :
    wordPlace s (unmapped a) = a.toNat / 2 * 2 := by
  have ha := toNat_lt_of_plainMemory h
  rw [wordPlace, evenAddr, memoryAddr, unmapped_toNat, if_pos ha]
  cases s.cfg.busWidth <;> dsimp only
  omega

/-- Where the words of a value of this many words lie when its address is `a`: memory, word after word (R472). -/
theorem wordPlace_words {s : State} {a : Word} {n i : Nat} (hn : n ≤ 4)
    (h : ∀ i < n, plainMemory s (unmapped (a + BitVec.ofNat 16 (2 * i))) = true) (hi : i < n) :
    wordPlace s (unmapped (a + BitVec.ofNat 16 (2 * i))) = a.toNat / 2 * 2 + 2 * i := by
  have h0 := toNat_lt_of_plainMemory (h 0 (by omega))
  rw [wordPlace_unmapped (h i hi), BitVec.toNat_add, BitVec.toNat_ofNat]
  rw [BitVec.toNat_add, BitVec.toNat_ofNat] at h0
  omega

/-- Memory with the first `n` words of a value written from an even place on, the most significant first (R472). -/
def Memory.withQuad (m : Memory) (place : Nat) (v : Quad) : Nat → Memory
  | 0 => m
  | n + 1 => (m.withQuad place v n).writeLane (place + 2 * n) .word (quadWord v n)

namespace Memory

variable {m : Memory} {place : Nat} {v : Quad}

theorem wf_withQuad (hm : m.wf = true) (n : Nat) : (m.withQuad place v n).wf = true := by
  induction n with
  | zero => exact hm
  | succ n ih => exact wf_writeLane _ _ _ ih

/-- Each word of the value is at its place (R472). -/
theorem readWord_withQuad (hm : m.wf = true) (hplace : place % 2 = 0) {n i : Nat} (hi : i < n) :
    (m.withQuad place v n).readWord (place + 2 * i) = quadWord v i := by
  induction n with
  | zero => omega
  | succ n ih =>
    rw [withQuad]
    rcases Nat.lt_succ_iff_lt_or_eq.mp hi with hlt | rfl
    · rw [readWord_writeLane_other _ (by omega) (by omega) (by omega), ih hlt]
    · exact readWord_writeLane_same (wf_withQuad hm i) _ _

theorem read_withQuad_other {x n : Nat} (h : ∀ i < n, x ≠ place + 2 * i ∧ x ≠ place + 2 * i + 1) :
    (m.withQuad place v n).read x = m.read x := by
  induction n with
  | zero => rfl
  | succ n ih =>
    obtain ⟨hlow, hhigh⟩ := h n (by omega)
    rw [withQuad, read_writeLane_other _ _ _ _ hlow hhigh, ih fun i hi => h i (by omega)]

end Memory

section Stored

variable {s : State} {a : Word}

/-- A word is stored with the MMU disabled and no DMA meanwhile (spec/20_memory.md R106, R110). -/
theorem writeWord_unmapped (hquiet : s.quiet = true) (hoff : s.mmu.sr0.getLsbD 0 = false)
    (h : plainMemory s (unmapped a) = true) (v : Word) :
    writeWord a v s = .ok false { s with mem := s.mem.writeLane (wordPlace s (unmapped a)) .word v } :=
  writeWordIn_plain (busGrant_quiet hquiet) (translate_disabled hoff s.mode a true) h v

/-- The words of a value are stored from the most significant on (R472, R484). -/
theorem writeFp_unmapped {fmt : Fmt} {v : Quad} (hquiet : s.quiet = true) (hoff : s.mmu.sr0.getLsbD 0 = false)
    (h : ∀ i < fmt.bytes / 2, plainMemory s (unmapped (a + BitVec.ofNat 16 (2 * i))) = true) :
    writeFp fmt v (.mem a) s = .ok ⟨⟩ { s with mem := s.mem.withQuad (a.toNat / 2 * 2) v (fmt.bytes / 2) } := by
  have hwords : fmt.bytes / 2 ≤ 4 := by cases fmt <;> decide
  have writes {i : Nat} (hi : i < fmt.bytes / 2) :
      writeWord (a + BitVec.ofNat 16 (2 * i)) (quadWord v i) { s with mem := s.mem.withQuad (a.toNat / 2 * 2) v i }
        = .ok false { s with mem := s.mem.withQuad (a.toNat / 2 * 2) v (i + 1) } := by
    have hplace := wordPlace_words hwords h hi
    rw [Memory.withQuad, ← hplace]
    exact writeWord_unmapped (s := { s with mem := s.mem.withQuad (a.toNat / 2 * 2) v i }) hquiet hoff (h i hi) _
  have first (hn : 0 < fmt.bytes / 2) : writeWord a (quadWord v 0) s
      = .ok false { s with mem := s.mem.withQuad (a.toNat / 2 * 2) v 1 } := by
    have hfirst := writes hn
    rwa [show a + BitVec.ofNat 16 (2 * 0) = a from BitVec.add_zero a] at hfirst
  cases fmt with
  | f => exact (bind_of_ok (first (by decide))).trans (bind_of_ok (writes (i := 1) (by decide)))
  | d =>
    exact (bind_of_ok (first (by decide))).trans ((bind_of_ok (writes (i := 1) (by decide))).trans
      ((bind_of_ok (writes (i := 2) (by decide))).trans (bind_of_ok (writes (i := 3) (by decide)))))

end Stored

/-! Reading and finding operands (R482 to R484). -/

section Operands

variable {s u t : State} {fmt : Fmt} {o : Operand} {a w w0 w1 w2 w3 : Word} {v : Quad} {s1 s2 s3 s4 : State}

theorem readFp_f (h0 : readWord a s = .ok w0 s1) (h1 : readWord (a + 2) s1 = .ok w1 s2) :
    readFp .f a s = .ok (w0 ++ (w1 ++ (0 : BitVec 32))) s2 := (bind_of_ok h0).trans (bind_of_ok h1)

theorem readFp_d (h0 : readWord a s = .ok w0 s1) (h1 : readWord (a + 2) s1 = .ok w1 s2)
    (h2 : readWord (a + 4) s2 = .ok w2 s3) (h3 : readWord (a + 6) s3 = .ok w3 s4) :
    readFp .d a s = .ok (w0 ++ (w1 ++ (w2 ++ w3))) s4 :=
  (bind_of_ok h0).trans ((bind_of_ok h1).trans ((bind_of_ok h2).trans (bind_of_ok h3)))

theorem fpSource_immediate (h : fetchWord s = .ok w t) :
    fpSource fmt ⟨.autoinc, .pc⟩ s = .ok (.imm s.regs.pc, w ++ (0 : BitVec 48)) t :=
  (bind_of_ok (run_get s)).trans (bind_of_ok h)

theorem fpSource_memory (ho : o ≠ ⟨.autoinc, .pc⟩) (he : evalField fmt.bytes o s = .ok (.mem a) u)
    (h : readFp fmt a u = .ok v t) : fpSource fmt o s = .ok (.mem a, v) t := by
  rw [fpSource, isImmediate_of_ne ho]
  exact (bind_of_ok he).trans (bind_of_ok h)

theorem fpAddress_memory {sz : Nat} (ho : o ≠ ⟨.autoinc, .pc⟩) (he : evalField sz o s = .ok (.mem a) t) :
    fpAddress sz o s = .ok (.mem a) t := by
  rw [fpAddress, isImmediate_of_ne ho]
  exact bind_of_ok he

theorem writeFp_immediate {p : Bool} (h : writeWord a (v.extractLsb' 48 16) s = .ok p t) :
    writeFp fmt v (.imm a) s = .ok ⟨⟩ t := bind_of_ok h

end Operands

/-! The instructions. -/

section Ends

variable {s s1 s2 t u : State} {o : Operand} {l : FpLoc} {v : Quad}

/-- An instruction whose last act but one is to look for an exception has done all else before. -/
theorem runInstr_checked {m k : M Unit} {c : Bool} {e : FpError}
    (h : m s = (if c then fpException (s.regs.pc - 2) e else k) t) (hk : k t = .ok ⟨⟩ u) :
    runInstr m s = if c then fpRaised s t e else completed u := by
  cases c
  · exact runInstr_ok (h.trans hk)
  · exact runInstr_fpException h

variable (hp : s.cfg.fpPresent = true)

include hp

theorem exec_clrf (hl : fpOperandAt (fpModes s.fpp.fps).fmt o s l s1)
    (h : writeFp (fpModes s.fpp.fps).fmt 0 l s1 = .ok ⟨⟩ t) :
    exec (.clrf o) s = completed (fccSet { n := false, z := true, v := false, c := false } t) :=
  runInstr_ok ((fpInstr_run hp).trans ((withFpLoc_run hl).trans ((bind_of_ok h).trans (setFcc_run _ t))))

theorem exec_stf {ac : Ac} (hl : fpOperandAt (fpModes s.fpp.fps).fmt o s l s1)
    (h : writeFp (fpModes s.fpp.fps).fmt (accRead (fpModes s.fpp.fps).fmt (acIndex ac) s) l s1 = .ok ⟨⟩ t) :
    exec (.stf ac o) s = completed t :=
  runInstr_ok ((fpInstr_run hp).trans ((bind_of_ok (readAc_run _ _ s)).trans ((withFpLoc_run hl).trans h)))

variable (hl : fpSourceAt (fpModes s.fpp.fps).fmt o s l v s2)

include hl

theorem exec_tstf : exec (.tstf o) s = if undefinedTrap (fpModes s.fpp.fps) l v
    then fpRaised s (fccSet (fccOfValue v false) s2) .undefinedVariable
    else completed (fccSet (fccOfValue v false) s2) := by
  rw [← fccOf_eq]
  exact runInstr_checked ((fpInstr_run hp).trans ((withFpSource_run hl).trans (bind_of_ok (setFcc_run _ s2)))) rfl

theorem exec_ldf (ac : Ac) : exec (.ldf ac o) s = if undefinedTrap (fpModes s.fpp.fps) l v
    then fpRaised s (fccSet (fccOfValue v false) s2) .undefinedVariable
    else completed (accWritten (fpModes s.fpp.fps).fmt (acIndex ac) v (fccSet (fccOfValue v false) s2)) := by
  rw [← fccOf_eq]
  exact runInstr_checked ((fpInstr_run hp).trans ((withFpSource_run hl).trans (bind_of_ok (setFcc_run _ s2))))
    (writeAc_run _ _ _ _)

theorem fpUnary_completes {f : Quad → Quad} (h : writeFp (fpModes s.fpp.fps).fmt (f v) l s2 = .ok ⟨⟩ t) :
    runInstr (fpUnary o f) s = if undefinedTrap (fpModes s.fpp.fps) l v
      then fpRaised s (fccSet (fccOfValue (f v) false) t) .undefinedVariable
      else completed (fccSet (fccOfValue (f v) false) t) := by
  rw [← fccOf_eq]
  exact runInstr_checked ((fpInstr_run hp).trans ((withFpSource_run hl).trans
    ((bind_of_ok h).trans (bind_of_ok (setFcc_run _ t))))) rfl

end Ends

/-- Settles O41: the reads and writes of a value by its words; each instruction by its end, with no trap on -0 due. -/
theorem fpSingleOperand : Obligations.FpSingleOperand := by
  refine ⟨fun fps => rfl, fun fmt v n s => rfl, ?store,
    fun n s => ⟨rfl, rfl⟩, fun a w0 w1 w2 w3 s s1 s2 s3 s4 h0 h1 => ⟨readFp_f h0 h1, readFp_d h0 h1⟩,
    fun fmt o s u t a w v => ⟨fpSource_immediate, fpSource_memory⟩, fun fmt v a p s t => writeFp_immediate,
    fun s t sz o a => ⟨rfl, fpAddress_memory⟩, ⟨rfl, rfl⟩,
    fun s s1 o ac l hp => ⟨fun hl => ?stored, fun v s2 hl hu => ?read⟩⟩
  case store =>
    intro fmt v a s hwf hquiet hoff place h
    have hplace {i : Nat} (hi : i < fmt.bytes / 2) : place i = a.toNat / 2 * 2 + 2 * i :=
      wordPlace_words (by cases fmt <;> decide) h hi
    refine ⟨_, writeFp_unmapped hquiet hoff h, rfl, fun i hi => ?_, fun x hx => ?_⟩
    · rw [hplace hi]
      exact Memory.readWord_withQuad hwf (Nat.mul_mod_left _ 2) hi
    · refine Memory.read_withQuad_other fun i hi => ?_
      rw [← hplace hi]
      exact hx i hi
  case stored => exact ⟨fun t h => exec_clrf hp hl h, fun t h => exec_stf hp hl h⟩
  case read =>
    have clears {x y : Host.Outcome State Fault Refusal} {i : Instr} (h : exec i s = if undefinedTrap
        (fpModes s.fpp.fps) l v then x else y) : exec i s = y := by rw [h, hu]; rfl
    refine ⟨clears (exec_ldf hp hl ac), clears (exec_tstf hp hl), fun t h => ?_, fun t h => ?_⟩
    · rw [← fpMagnitude_eq] at h ⊢
      exact clears (fpUnary_completes hp hl h)
    · rw [← fpNegate_eq] at h ⊢
      exact clears (fpUnary_completes hp hl h)

end Sys2Proof.Machine

namespace Sys2Proof.Machine

/-! Floating values as numbers (spec/46_fp_state.md R471, R473, R486): the fields of a value, its negative, and sums. -/

theorem fpMantissa_of_zero {v : Quad} (h : fpExp v = 0) : fpMantissa v = 0 := if_pos ((fpZero_iff v).mpr h)

theorem fpMantissa_of_nonzero {v : Quad} (h : fpExp v ≠ 0) : fpMantissa v =
    if fpSign v then -(2 ^ 55 + ((v.extractLsb' 0 55).toNat : ℤ)) else 2 ^ 55 + ((v.extractLsb' 0 55).toNat : ℤ) := by
  rw [fpMantissa, if_neg (mt (fpZero_iff v).mp h)]

/-- The magnitude of a nonzero mantissa: 56 bits, the hidden one among them (R471). -/
theorem natAbs_fpMantissa {v : Quad} (h : fpExp v ≠ 0) :
    (fpMantissa v).natAbs = 2 ^ 55 + (v.extractLsb' 0 55).toNat := by
  rw [fpMantissa_of_nonzero h]
  split <;> omega

theorem fpMantissa_lt_zero_iff {v : Quad} (h : fpExp v ≠ 0) : fpMantissa v < 0 ↔ fpSign v = true := by
  rw [fpMantissa_of_nonzero h]
  split <;> simp_all <;> omega

theorem fpMantissa_eq_zero_iff (v : Quad) : fpMantissa v = 0 ↔ fpExp v = 0 := by
  refine ⟨fun h => ?_, fpMantissa_of_zero⟩
  by_contra hne
  have habs := natAbs_fpMantissa hne
  omega

theorem fpNegate_of_zero {v : Quad} (h : fpExp v = 0) : fpNegate v = 0 := if_pos ((fpZero_iff v).mpr h)

theorem fpNegate_of_nonzero {v : Quad} (h : fpExp v ≠ 0) : fpNegate v = v ^^^ 0x8000000000000000 :=
  if_neg (mt (fpZero_iff v).mp h)

theorem fpExp_fpNegate (v : Quad) : fpExp (fpNegate v) = fpExp v := by
  by_cases h : fpExp v = 0
  · rw [fpNegate_of_zero h, h]
    rfl
  · rw [fpNegate_of_nonzero h, fpExp, fpExp, BitVec.extractLsb'_xor]
    exact congrArg BitVec.toNat BitVec.xor_zero

theorem fpMantissa_fpNegate (v : Quad) : fpMantissa (fpNegate v) = -fpMantissa v := by
  by_cases h : fpExp v = 0
  · rw [fpNegate_of_zero h, fpMantissa_of_zero h]
    rfl
  · have hexp : fpExp (fpNegate v) ≠ 0 := by rwa [fpExp_fpNegate]
    have hfraction : (v ^^^ 0x8000000000000000).extractLsb' 0 55 = v.extractLsb' 0 55 := by
      rw [BitVec.extractLsb'_xor]
      exact BitVec.xor_zero
    have hsign : fpSign (v ^^^ 0x8000000000000000) = !fpSign v := by
      rw [fpSign_eq, fpSign_eq, BitVec.getLsbD_xor]
      exact Bool.xor_true _
    rw [fpNegate_of_nonzero h] at hexp ⊢
    rw [fpMantissa_of_nonzero hexp, fpMantissa_of_nonzero h, hfraction, hsign]
    cases fpSign v
    · rfl
    · exact (neg_neg _).symm

theorem fpValue_fpNegate (v : Quad) : fpValue (fpNegate v) = -fpValue v := by
  rw [fpValue, fpValue, fpMantissa_fpNegate, fpExp_fpNegate, Int.cast_neg, neg_mul]

/-- The sum of two mantissas over the smaller exponent stands for the sum of the values (R540). -/
theorem fpSumMantissa_value (a v : Quad) :
    (fpSumMantissa a v : ℚ) * 2 ^ (((min (fpExp a) (fpExp v) : ℕ) : ℤ) - 184) = fpValue a + fpValue v := by
  have term (x : Quad) {m : ℕ} (h : m ≤ fpExp x) :
      (fpMantissa x : ℚ) * 2 ^ (fpExp x - m) * 2 ^ ((m : ℤ) - 184) = fpValue x := by
    rw [fpValue, mul_assoc, ← zpow_natCast, ← zpow_add₀ two_ne_zero, Nat.cast_sub h]
    congr 2
    ring
  rw [fpSumMantissa]
  push_cast
  rw [add_mul, ← Nat.cast_min, term a (Nat.min_le_left _ _), term v (Nat.min_le_right _ _)]

/-- FSRC minus AC has the sign of the difference of the numbers they stand for (R545). -/
theorem fpCompare_value (v a : Quad) :
    (fpCompare v a : ℚ) * 2 ^ (((min (fpExp v) (fpExp a) : ℕ) : ℤ) - 184) = fpValue v - fpValue a := by
  rw [sub_eq_add_neg (fpValue v), ← fpValue_fpNegate, ← fpSumMantissa_value, fpExp_fpNegate]
  rfl

theorem fpCompare_lt_zero_iff (v a : Quad) : fpCompare v a < 0 ↔ fpValue v < fpValue a := by
  have hunit : (0 : ℚ) < 2 ^ (((min (fpExp v) (fpExp a) : ℕ) : ℤ) - 184) := by positivity
  have hscaled := mul_lt_mul_iff_left₀ (b := (fpCompare v a : ℚ)) (c := 0) hunit
  rw [zero_mul, fpCompare_value, sub_neg, Int.cast_lt_zero] at hscaled
  exact hscaled.symm

theorem fpCompare_eq_zero_iff (v a : Quad) : fpCompare v a = 0 ↔ fpValue v = fpValue a := by
  rw [← sub_eq_zero (a := fpValue v), ← fpCompare_value, mul_eq_zero_iff_right (by positivity), Int.cast_eq_zero]

end Sys2Proof.Machine

namespace Sys2Proof.Machine

/-! The arithmetic instructions, and the exceptions (spec/46_fp_state.md R481 to R493, spec/47_fp_instructions.md R540 to
R545). -/

section Operands

variable {s s2 t : State} {o : Operand} {l : FpLoc} {v : Quad} {fmt : Fmt}

/-- AC6 and AC7 are no operands (R481, R493). -/
theorem accOf_eq_none {r : Reg} (h : r = .sp ∨ r = .pc) : accOf r = none := by
  rcases h with rfl | rfl <;> rfl

theorem withFpLoc_illegal {fea : Word} {c : FpLoc → M Unit} (hm : o.mode = .register) (hr : accOf o.reg = none) :
    withFpLoc fea fmt o c = fpException fea .opCode := by
  simp only [withFpLoc, hm, if_true, hr]

theorem withFpSource_illegal {fea : Word} {c : FpLoc → Quad → M Unit} (hm : o.mode = .register)
    (hr : accOf o.reg = none) : withFpSource fea fmt o c = fpException fea .opCode := by
  simp only [withFpSource, hm, if_true, hr]

/-- The instructions that look at an FSRC operand for -0 before they run (R489). -/
theorem fpInstr_withFpOperand {c : Word → FpModes → Quad → M Unit} (hp : s.cfg.fpPresent = true)
    (hl : fpSourceAt (fpModes s.fpp.fps).fmt o s l v s2) :
    fpInstr (fun fea md => withFpOperand fea md o (c fea md)) s
      = (if undefinedTrap (fpModes s.fpp.fps) l v then fpException (s.regs.pc - 2) .undefinedVariable
          else c (s.regs.pc - 2) (fpModes s.fpp.fps) v) s2 :=
  (fpInstr_run hp).trans (withFpSource_run hl)

theorem runInstr_withFpOperand_undefined {c : Word → FpModes → Quad → M Unit} (hp : s.cfg.fpPresent = true)
    (hl : fpSourceAt (fpModes s.fpp.fps).fmt o s l v s2) (hu : undefinedTrap (fpModes s.fpp.fps) l v = true) :
    runInstr (fpInstr fun fea md => withFpOperand fea md o (c fea md)) s = fpRaised s s2 .undefinedVariable :=
  runInstr_fpException ((fpInstr_withFpOperand hp hl).trans (by rw [hu]; rfl))

/-- An undefined variable is a zero (R473). -/
theorem fpExp_of_undefinedTrap {md : FpModes} (h : undefinedTrap md l v = true) : fpExp v = 0 := by
  simp only [undefinedTrap, fpUndefined, Bool.and_eq_true] at h
  obtain ⟨-, hzero, -⟩ := h
  exact (fpZero_iff v).mp hzero

/-- A conversion checks its operand after it has set the codes from it (R554). -/
theorem ldcdf_undefined (ac : Ac) (hp : s.cfg.fpPresent = true)
    (hl : fpSourceAt (fpModes s.fpp.fps).fmt.other o s l v s2) (hu : undefinedTrap (fpModes s.fpp.fps) l v = true) :
    exec (.ldcdf ac o) s = fpRaised s (fccSet (fccOfValue v false) s2) .undefinedVariable := by
  rw [← fccOf_eq]
  refine runInstr_fpException ((fpInstr_run hp).trans ((withFpSource_run hl).trans ?_))
  rw [if_pos hu]
  exact bind_of_ok (setFcc_run _ s2)

end Operands

/-- The end of an instruction that has delivered `r` to an accumulator, `t` being the state before: completed, or with the
exception delivered (R488). -/
def EndsDelivered (i : Instr) (s : State) (fmt : Fmt) (n : Fin 6) (r : Delivered) (t : State) : Prop :=
  (r.error = none → exec i s = completed (delivered fmt n r t))
    ∧ ∀ e, r.error = some e → exec i s = fpRaised s (delivered fmt n r t) e

/-- MODF's integer part in the odd accumulator of an even one (R544). -/
def wholeWritten (fmt : Fmt) (ac : Ac) (whole : Quad) (t : State) : State :=
  match ac with
  | .ac0 => accWritten fmt 1 whole t
  | .ac2 => accWritten fmt 3 whole t
  | .ac1 => t
  | .ac3 => t

theorem runInstr_deliverTo {m : M Unit} {s t : State} {fmt : Fmt} {n : Fin 6} {r : Delivered}
    (h : m s = deliverTo (s.regs.pc - 2) fmt n r t) :
    (r.error = none → runInstr m s = completed (delivered fmt n r t))
      ∧ ∀ e, r.error = some e → runInstr m s = fpRaised s (delivered fmt n r t) e :=
  runInstr_fpRaise (h.trans (deliverTo_run _ _ _ _ _))

section Arithmetic

variable {s s2 : State} {o : Operand} {l : FpLoc} {v : Quad}

theorem fpArith_delivers (f : FpModes → Quad → Quad → Delivered) (ac : Ac) (hp : s.cfg.fpPresent = true)
    (hl : fpSourceAt (fpModes s.fpp.fps).fmt o s l v s2) (hu : undefinedTrap (fpModes s.fpp.fps) l v = false) :
    fpArith ac o f s = deliverTo (s.regs.pc - 2) (fpModes s.fpp.fps).fmt (acIndex ac)
      (f (fpModes s.fpp.fps) (accRead (fpModes s.fpp.fps).fmt (acIndex ac) s) v) s2 := by
  rw [← accRead_congr (fpSourceAt_fpp hl)]
  refine (fpInstr_withFpOperand hp hl).trans ?_
  rw [hu]
  exact bind_of_ok (readAc_run _ _ s2)

variable (ac : Ac) (hp : s.cfg.fpPresent = true) (hl : fpSourceAt (fpModes s.fpp.fps).fmt o s l v s2)
  (hu : undefinedTrap (fpModes s.fpp.fps) l v = false)

include hp hl hu

theorem divf_delivers (hv : fpExp v ≠ 0) :
    EndsDelivered (.divf ac o) s (fpModes s.fpp.fps).fmt (acIndex ac)
      (fpDiv (fpModes s.fpp.fps) (accRead (fpModes s.fpp.fps).fmt (acIndex ac) s) v) s2 := by
  rw [← accRead_congr (fpSourceAt_fpp hl)]
  refine runInstr_deliverTo ((fpInstr_withFpOperand hp hl).trans ?_)
  rw [hu, if_neg Bool.false_ne_true, if_neg (mt (fpZero_iff v).mp hv)]
  exact bind_of_ok (readAc_run _ _ s2)

/-- A zero divisor changes nothing (R543). -/
theorem divf_by_zero (hv : fpExp v = 0) : exec (.divf ac o) s = fpRaised s s2 .divideByZero := by
  refine runInstr_fpException ((fpInstr_withFpOperand hp hl).trans ?_)
  rw [hu, if_neg Bool.false_ne_true, if_pos ((fpZero_iff v).mpr hv)]

theorem modf_delivers :
    let r := fpMod (fpModes s.fpp.fps) (Config.freeQuad s2.free) (accRead (fpModes s.fpp.fps).fmt (acIndex ac) s) v
    EndsDelivered (.modf ac o) s (fpModes s.fpp.fps).fmt (acIndex ac) r.part
      (wholeWritten (fpModes s.fpp.fps).fmt ac r.whole { s2 with free := s2.free + 1 }) := by
  rw [← accRead_congr (fpSourceAt_fpp hl)]
  refine runInstr_deliverTo ((fpInstr_withFpOperand hp hl).trans ?_)
  rw [hu, if_neg Bool.false_ne_true]
  cases ac <;> rfl

theorem cmpf_completes :
    let a := accRead (fpModes s.fpp.fps).fmt (acIndex ac) s
    exec (.cmpf ac o) s = completed
      (fccSet { n := decide (fpValue v < fpValue a), z := decide (fpValue v = fpValue a), v := false, c := false }
        (if fpExp v = 0 ∧ fpExp a = 0 then accWritten (fpModes s.fpp.fps).fmt (acIndex ac) 0 s2 else s2)) := by
  intro a
  have ha : accRead (fpModes s.fpp.fps).fmt (acIndex ac) s2 = a := accRead_congr (fpSourceAt_fpp hl) _
  have hzeros : (fpZero v && fpZero a) = true ↔ fpExp v = 0 ∧ fpExp a = 0 := by
    rw [Bool.and_eq_true, fpZero_iff, fpZero_iff]
  refine runInstr_ok ((fpInstr_withFpOperand hp hl).trans ?_)
  rw [hu, if_neg Bool.false_ne_true, bind_of_ok (readAc_run _ _ s2), ha, bind_of_ok (setFcc_run _ s2)]
  simp only [fpCompare_lt_zero_iff, fpCompare_eq_zero_iff]
  split
  · rename_i hz
    rw [if_pos (hzeros.mp hz)]
    rfl
  · rename_i hz
    rw [if_neg (mt hzeros.mpr hz)]
    rfl

end Arithmetic

/-- Settles O42: each instruction by what it delivers; the compare by the sign of an exact difference. -/
theorem fpArithmetic : Obligations.FpArithmetic := by
  intro s s2 o ac l v hp md a stores hl hu
  have arith (f : FpModes → Quad → Quad → Delivered) := (runInstr_deliverTo (fpArith_delivers f ac hp hl hu)).1
  refine ⟨arith fpAdd, arith fpSub, arith fpMul, fun hv => (divf_delivers ac hp hl hu hv).1, fun h => ?_,
    cmpf_completes ac hp hl hu⟩
  refine ((modf_delivers ac hp hl hu).1 h).trans ?_
  cases ac <;> rfl

/-- Settles O46: an exception is the end of each instruction in its list; what is delivered is stored before. -/
theorem fpExceptions : Obligations.FpExceptions := by
  refine ⟨fun fps v n a => ?undefined, fun s o ac w hp => ?raised⟩
  case undefined =>
    intro minusZero
    have hminus : (fps.getLsbD 11 && true && (v.getLsbD 63 && v.extractLsb' 55 8 == 0)) = minusZero := by
      rw [Bool.and_true, ← Bool.and_assoc]
    refine ⟨?_, (undefinedTrap_eq _ _ _).trans hminus, (undefinedTrap_eq _ _ _).trans hminus⟩
    rw [undefinedTrap, FpLoc.isAcc, Bool.not_true, Bool.and_false, Bool.false_and]
  case raised =>
    intro md a raises
    have single {i : Instr} {t : State} {e : FpError} (h : exec i s = fpRaised s t e) : raises [i] t e :=
      List.forall_mem_singleton.mpr h
    refine ⟨runInstr_fpException (fpInstr_run hp), fun hm hr => ?illegal, fun l v s2 hl hu => single ?convert,
      fun l v s2 hl => ⟨fun hu => ⟨?before, ?after, fun t h => ?unary⟩, fun hu hv => single (divf_by_zero ac hp hl hu hv),
        fun hu e => ?delivered⟩⟩
    case illegal =>
      have hnone := accOf_eq_none hr
      have source {f : FpModes → Fmt} {c : Word → FpModes → FpLoc → Quad → M Unit} :
          runInstr (fpInstr fun fea md => withFpSource fea (f md) o (c fea md)) s = fpRaised s s .opCode :=
        runInstr_fpException ((fpInstr_run hp).trans (congrFun (withFpSource_illegal hm hnone) s))
      have operand {c : Word → FpModes → Quad → M Unit} :
          runInstr (fpInstr fun fea md => withFpOperand fea md o (c fea md)) s = fpRaised s s .opCode := source
      have target {f : FpModes → Fmt} {c : Word → FpModes → Quad → FpLoc → M Unit} :
          runInstr (fpInstr fun fea md => do
            let a ← readAc md.fmt (acIndex ac)
            withFpLoc fea (f md) o (c fea md a)) s = fpRaised s s .opCode :=
        runInstr_fpException ((fpInstr_run hp).trans ((bind_of_ok (readAc_run _ _ s)).trans
          (congrFun (withFpLoc_illegal hm hnone) s)))
      have clrf : exec (.clrf o) s = fpRaised s s .opCode :=
        runInstr_fpException ((fpInstr_run hp).trans (congrFun (withFpLoc_illegal hm hnone) s))
      simp only [raises, List.forall_mem_cons]
      exact ⟨clrf, source, source, source, operand, operand, operand, source, operand, operand, target, operand, target,
        source, List.forall_mem_nil _⟩
    case convert => exact ldcdf_undefined ac hp hl hu
    case before =>
      have operand {c : Word → FpModes → Quad → M Unit} :
          runInstr (fpInstr fun fea md => withFpOperand fea md o (c fea md)) s = fpRaised s s2 .undefinedVariable :=
        runInstr_withFpOperand_undefined hp hl hu
      simp only [raises, List.forall_mem_cons]
      exact ⟨operand, operand, operand, operand, operand, operand, List.forall_mem_nil _⟩
    case after =>
      simp only [raises, List.forall_mem_cons]
      exact ⟨(exec_ldf hp hl ac).trans (if_pos hu), (exec_tstf hp hl).trans (if_pos hu), List.forall_mem_nil _⟩
    case unary =>
      have hv : fpExp v = 0 := fpExp_of_undefinedTrap hu
      have unary {f : Quad → Quad} (hf : f v = 0) : runInstr (fpUnary o f) s =
          fpRaised s (fccSet { n := false, z := true, v := false, c := false } t) .undefinedVariable := by
        rw [fpUnary_completes hp hl (by rwa [hf]), if_pos hu, hf]
        rfl
      simp only [raises, List.forall_mem_cons]
      exact ⟨unary (by rw [fpMagnitude_eq, if_pos hv]), unary (fpNegate_of_zero hv), List.forall_mem_nil _⟩
    case delivered =>
      have arith (f : FpModes → Quad → Quad → Delivered) :=
        (runInstr_deliverTo (fpArith_delivers f ac hp hl hu)).2 e
      refine ⟨fun h => single (arith fpAdd h), fun h => single (arith fpSub h), fun h => single (arith fpMul h),
        fun hv h => single ((divf_delivers ac hp hl hu hv).2 e h), fun h => single ?_⟩
      refine ((modf_delivers ac hp hl hu).2 e h).trans ?_
      cases ac <;> rfl

end Sys2Proof.Machine

namespace Sys2Proof.Machine

/-! The conversions and the exponent moves (spec/47_fp_instructions.md R550 to R555). -/

/-! Integer operands (spec/46_fp_state.md R476, R483). -/

section Integers

variable {s t u : State} {o : Operand} {md : FpModes} {w x : Word} {p : Bool}

/-- One word of a long integer is its high half (R552). -/
theorem toInt_append_zero (w : Word) : (w ++ (0 : Word) : BitVec 32).toInt = w.toInt * 65536 :=
  (toInt_append_word w 0).trans (Int.add_zero _)

theorem readInteger_short (hmd : md.long = false) (h : operandWord o s = .ok w t) :
    readInteger md o s = .ok w.toInt t := by
  rw [readInteger, hmd]
  exact bind_of_ok h

theorem readInteger_long {l : LongLoc} (hmd : md.long = true) (hl : longLoc o s = .ok l u) :
    readInteger md o s = (do return (← readLong l).toInt : M Int) u := by
  rw [readInteger, hmd]
  exact bind_of_ok hl

theorem readInteger_oneWord {l : LongLoc} {y : M Word} (hmd : md.long = true) (hl : longLoc o s = .ok l u)
    (hy : readLong l = (do return (← y) ++ (0 : Word))) (h : y u = .ok w t) :
    readInteger md o s = .ok (w.toInt * 65536) t := by
  have hread : readLong l u = .ok (w ++ (0 : Word)) t := by
    rw [hy]
    exact bind_of_ok h
  rw [readInteger_long hmd hl, bind_of_ok hread, toInt_append_zero]
  rfl

theorem readInteger_twoWords {a : Word} {v : State} (hmd : md.long = true) (hl : longLoc o s = .ok (.mem a) u)
    (h : readWord a u = .ok w t) (h' : readWord (a + 2) t = .ok x v) :
    readInteger md o s = .ok (w.toInt * 65536 + x.toNat) v := by
  have hread : readLong (.mem a) u = .ok (w ++ x) v := (bind_of_ok h).trans (bind_of_ok h')
  rw [readInteger_long hmd hl, bind_of_ok hread, toInt_append_word]
  rfl

theorem writeInteger_short {i : Int} {l : Loc} (hmd : md.long = false) (he : evalField 2 o s = .ok l u)
    (h : writeLoc l (BitVec.ofInt 16 i) u = .ok p t) : writeInteger md o i s = .ok p t := by
  rw [writeInteger, hmd]
  exact (bind_of_ok he).trans h

theorem writeInteger_long {i : Int} {l : LongLoc} (hmd : md.long = true) (hl : longLoc o s = .ok l u)
    (h : writeLong ((BitVec.ofInt 32 i).extractLsb' 16 16) ((BitVec.ofInt 32 i).extractLsb' 0 16) l u = .ok p t) :
    writeInteger md o i s = .ok p t := by
  rw [writeInteger, hmd]
  exact (bind_of_ok hl).trans h

end Integers

/-! The instructions. -/

section Ends

variable {s t u : State} {o : Operand} {p : Bool}

/-- The exponent of a value less 200 as a word: negative below 200, zero at 200 (R550). -/
theorem codesOf_exponent (v : Quad) : codesOf (BitVec.ofInt 16 ((fpExp v : Int) - 0o200)) false false
    = { n := decide (fpExp v < 0o200), z := decide (fpExp v = 0o200), v := false, c := false } := by
  have hlt : fpExp v < 256 := (v.extractLsb' 55 8).isLt
  have htoInt : (BitVec.ofInt 16 ((fpExp v : Int) - 0o200)).toInt = (fpExp v : Int) - 0o200 := by
    rw [BitVec.toInt_ofInt, Int.bmod_eq_of_le] <;> omega
  have hn : (BitVec.ofInt 16 ((fpExp v : Int) - 0o200)).msb = decide (fpExp v < 0o200) := by
    rw [BitVec.msb_eq_toInt, htoInt, decide_eq_decide]
    omega
  have hz : (BitVec.ofInt 16 ((fpExp v : Int) - 0o200) == 0) = decide (fpExp v = 0o200) := by
    rw [Bool.eq_iff_iff, beq_iff_eq, decide_eq_true_iff, ← BitVec.toInt_inj, htoInt]
    change _ = (0 : Int) ↔ _
    omega
  rw [codesOf, hn, hz]

/-- LDEXP delivers the value with its exponent replaced, in range and out of it (R551). -/
theorem ldexp_ends {start t : State} {md : FpModes} {a : Quad} {i : Int} {n : Fin 6} {m : M Unit}
    (h : m start = deliverTo (start.regs.pc - 2) md.fmt n (fpLoadExp md a i) t) :
    let r := fpWithExp a (i + 0o200)
    let loads (v : Quad) (fv : Bool) : State := fccSet (fccOfValue v fv) (accWritten md.fmt n v t)
    runInstr m start =
      if 0o177 < i then if md.overflowTraps then fpRaised start (loads r true) .overflow else completed (loads 0 true)
      else if i < -0o177 then
        if md.underflowTraps then fpRaised start (loads r false) .underflow else completed (loads 0 false)
      else completed (loads r false) := by
  intro r loads
  obtain ⟨hdone, hraised⟩ := runInstr_deliverTo h
  unfold fpLoadExp at hdone hraised
  split_ifs at hdone hraised ⊢
  · exact hraised _ rfl
  · exact hdone rfl
  · exact hraised _ rfl
  · exact hdone rfl
  · exact hdone rfl

end Ends

/-- Settles O45: each instruction by the integer or the value it reads, and what it stores or delivers of it. -/
theorem fpConversions : Obligations.FpConversions := by
  intro s o ac hp md n a
  refine ⟨?stexp, ?ldexp, ?ldcif, ?short, ?long, ?stcfi, ?ldcdf, ?stcfd⟩
  case stexp =>
    intro l u p t he r k h
    have hk : codesOf r false false = k := codesOf_exponent a
    rw [← hk]
    exact runInstr_ok ((fpInstr_run hp).trans ((bind_of_ok (readAc_run _ _ s)).trans ((bind_of_ok he).trans
      ((bind_of_ok h).trans ((bind_of_ok (setFcc_run _ t)).trans (setCodes_run p _ _))))))
  case ldexp =>
    intro w t h r loads
    have hread : readAc md.fmt n t = .ok a t :=
      (readAc_run md.fmt n t).trans (by rw [accRead_congr ((finds_operandWord o).fpp_eq h)])
    exact ldexp_ends ((fpInstr_run hp).trans ((bind_of_ok h).trans (bind_of_ok hread)))
  case ldcif =>
    intro i t h r
    rw [← fccOf_eq]
    exact runInstr_ok ((fpInstr_run hp).trans ((bind_of_ok h).trans ((bind_of_ok (writeAc_run _ _ _ t)).trans
      (setFcc_run _ _))))
  case short => exact fun hmd => ⟨fun w t => readInteger_short hmd, fun i l u p t => writeInteger_short hmd⟩
  case long =>
    intro hmd l u hl
    refine ⟨?_, fun i p t => writeInteger_long hmd hl⟩
    cases l with
    | reg r => exact fun w t => readInteger_oneWord hmd hl rfl
    | imm => exact fun w t => readInteger_oneWord hmd hl rfl
    | mem a => exact fun w t x v => readInteger_twoWords hmd hl
  case stcfi =>
    intro i limit fits r k p t h
    have hraises : (!fits && md.conversionTraps) = true ↔ fits = false ∧ md.conversionTraps = true := by
      rw [Bool.and_eq_true, Bool.not_eq_true']
    refine Eq.trans (runInstr_checked ((fpInstr_run hp).trans ((bind_of_ok (readAc_run _ _ s)).trans ((bind_of_ok h).trans
      ((bind_of_ok (setFcc_run k t)).trans (bind_of_ok (setCodes_run p k _)))))) rfl) (if_congr hraises rfl rfl)
  case ldcdf =>
    intro l v w hl hu r t
    refine runInstr_deliverTo (((fpInstr_run hp).trans (withFpSource_run hl)).trans ?_)
    rw [hu]
    rfl
  case stcfd =>
    intro l u t hl r h
    rw [← fccOf_eq]
    exact runInstr_fpRaise ((fpInstr_run hp).trans ((bind_of_ok (readAc_run _ _ s)).trans ((withFpLoc_run hl).trans
      ((bind_of_ok h).trans (bind_of_ok (setFcc_run _ t))))))

end Sys2Proof.Machine

namespace Sys2Proof.Machine

/-! What is delivered of an exact number (spec/46_fp_state.md R487, R488). -/

/-! Bit lengths. -/

theorem bitLength_le {n : ℕ} (h : n ≠ 0) : 2 ^ (bitLength n - 1) ≤ n := Nat.log2_self_le h

theorem lt_bitLength (n : ℕ) : n < 2 ^ bitLength n := Nat.lt_log2_self

theorem bitLength_pos (n : ℕ) : 0 < bitLength n := Nat.succ_pos _

theorem lt_bitLength_iff {n b : ℕ} (h : n ≠ 0) : b < bitLength n ↔ 2 ^ b ≤ n := by
  rw [bitLength, Nat.lt_succ_iff]
  exact Nat.le_log2 h

theorem bitLength_eq_iff {n b : ℕ} (h : n ≠ 0) : bitLength n = b + 1 ↔ 2 ^ b ≤ n ∧ n < 2 ^ (b + 1) := by
  rw [bitLength, Nat.succ_inj]
  exact Nat.log2_eq_iff h

theorem bitLength_mul_two_pow {n : ℕ} (h : n ≠ 0) (k : ℕ) : bitLength (n * 2 ^ k) = bitLength n + k := by
  have hlow := bitLength_le h
  have hhigh := lt_bitLength n
  have hpos := bitLength_pos n
  rw [show bitLength n + k = (bitLength n - 1 + k) + 1 by omega, bitLength_eq_iff (by positivity)]
  constructor
  · rw [pow_add]
    exact Nat.mul_le_mul_right _ hlow
  · rw [show bitLength n - 1 + k + 1 = bitLength n + k by omega, pow_add]
    exact Nat.mul_lt_mul_of_pos_right hhigh (by positivity)

/-! Cutting a number to `l` bits. -/

/-- The first `l` bits of a number, rounded by the bit after them unless it is to be chopped (R487). -/
def firstBits (chop : Bool) (l q : ℕ) : ℕ :=
  if !chop && q / 2 ^ (bitLength q - l - 1) % 2 == 1 then q / 2 ^ (bitLength q - l) + 1 else q / 2 ^ (bitLength q - l)

section FirstBits

variable {l q : ℕ} (chop : Bool)

theorem firstBits_cases (l q : ℕ) :
    firstBits chop l q = q / 2 ^ (bitLength q - l)
      ∨ (chop = false ∧ q / 2 ^ (bitLength q - l - 1) % 2 = 1 ∧ firstBits chop l q = q / 2 ^ (bitLength q - l) + 1) := by
  rw [firstBits]
  split
  · rename_i h
    rw [Bool.and_eq_true, Bool.not_eq_true', beq_iff_eq] at h
    exact .inr ⟨h.1, h.2, rfl⟩
  · exact .inl rfl

theorem firstBits_chop (l q : ℕ) : firstBits true l q = q / 2 ^ (bitLength q - l) := rfl

/-- The place after the first `l` bits counts half of the last of them. -/
theorem two_pow_pred {b : ℕ} (h : l < b) : 2 ^ (b - l) = 2 * 2 ^ (b - l - 1) := by
  rw [← pow_succ', Nat.sub_add_cancel (by omega)]

theorem div_bounds (hl : 0 < l) (h : l < bitLength q) :
    2 ^ (l - 1) ≤ q / 2 ^ (bitLength q - l) ∧ q / 2 ^ (bitLength q - l) < 2 ^ l := by
  have hq : q ≠ 0 := by
    rintro rfl
    exact absurd h (Nat.not_lt.mpr hl)
  constructor
  · rw [Nat.le_div_iff_mul_le (by positivity), ← pow_add, show l - 1 + (bitLength q - l) = bitLength q - 1 by omega]
    exact bitLength_le hq
  · rw [Nat.div_lt_iff_lt_mul (by positivity), ← pow_add, show l + (bitLength q - l) = bitLength q by omega]
    exact lt_bitLength q

theorem firstBits_bounds (hl : 0 < l) (h : l < bitLength q) :
    2 ^ (l - 1) ≤ firstBits chop l q ∧ firstBits chop l q ≤ 2 ^ l := by
  have hdiv := div_bounds hl h
  rcases firstBits_cases chop l q with hc | ⟨-, -, hc⟩ <;> omega

theorem firstBits_chopped :
    firstBits true l q * 2 ^ (bitLength q - l) ≤ q ∧ q + 1 ≤ (firstBits true l q + 1) * 2 ^ (bitLength q - l) :=
  ⟨Nat.div_mul_le_self _ _, Nat.lt_mul_of_div_lt (Nat.lt_succ_self _) (by positivity)⟩

/-- Rounded bits are within half a unit of the number, on either side (R487). -/
theorem firstBits_rounded (h : l < bitLength q) :
    2 * (firstBits false l q * 2 ^ (bitLength q - l)) ≤ 2 * q + 2 ^ (bitLength q - l)
      ∧ 2 * (q + 1) ≤ 2 * (firstBits false l q * 2 ^ (bitLength q - l)) + 2 ^ (bitLength q - l) := by
  have hhalf : 0 < 2 ^ (bitLength q - l - 1) := by positivity
  have hbits : firstBits false l q = if q / 2 ^ (bitLength q - l - 1) % 2 == 1
      then q / 2 ^ (bitLength q - l) + 1 else q / 2 ^ (bitLength q - l) := rfl
  rw [two_pow_pred h, Nat.mul_comm 2 (2 ^ _), ← Nat.div_div_eq_div_mul] at hbits
  rw [hbits, two_pow_pred h]
  generalize 2 ^ (bitLength q - l - 1) = half at hhalf
  have hlow : q / half * half ≤ q := Nat.div_mul_le_self q half
  have hhigh : q + 1 ≤ (q / half + 1) * half := Nat.lt_mul_of_div_lt (Nat.lt_succ_self _) hhalf
  obtain ⟨c, hc | hc⟩ : ∃ c, q / half = 2 * c ∨ q / half = 2 * c + 1 := ⟨q / half / 2, by omega⟩
  · rw [hc] at hlow hhigh ⊢
    rw [if_neg (by simp), Nat.mul_div_cancel_left c two_pos]
    constructor <;> linarith
  · rw [hc] at hlow hhigh ⊢
    rw [if_pos (by simp [Nat.add_mod]), show (2 * c + 1) / 2 = c by omega]
    constructor <;> linarith

/-- Zeros after the first `l` bits are no rest. -/
theorem firstBits_exact {n k : ℕ} (hn : n ≠ 0) (h : n < 2 ^ l) (hk : l < k) :
    firstBits chop l (n * 2 ^ k) * 2 ^ (bitLength (n * 2 ^ k) - l) = n * 2 ^ k := by
  have hlength : bitLength (n * 2 ^ k) = bitLength n + k := bitLength_mul_two_pow hn k
  have hle : bitLength n ≤ l := Nat.not_lt.mp (mt (lt_bitLength_iff hn).mp (Nat.not_le.mpr h))
  have hpos := bitLength_pos n
  have hdvd : 2 ^ (bitLength (n * 2 ^ k) - l) ∣ n * 2 ^ k := Dvd.dvd.mul_left (pow_dvd_pow 2 (by omega)) n
  rcases firstBits_cases chop l (n * 2 ^ k) with hc | ⟨-, hodd, -⟩
  · rw [hc, Nat.div_mul_cancel hdvd]
  · obtain ⟨c, hc⟩ := hdvd
    have hlt : l < bitLength (n * 2 ^ k) := by omega
    have heven : n * 2 ^ k / 2 ^ (bitLength (n * 2 ^ k) - l - 1) = 2 * c :=
      Nat.div_eq_of_eq_mul_right (by positivity) (hc.trans (by rw [two_pow_pred hlt]; ring))
    omega

end FirstBits

end Sys2Proof.Machine

namespace Sys2Proof.Machine

/-! Normalization (R487): the quotient it cuts, and the number its exponent and fraction stand for. -/

theorem Fmt.fraction_pos (fmt : Fmt) : 0 < fmt.fraction := by
  cases fmt <;> decide

theorem Fmt.fraction_le (fmt : Fmt) : fmt.fraction ≤ 56 := by
  cases fmt <;> decide

/-- How far `fp_norm` moves the numerator up, so that the quotient has more than `L` bits. -/
def normShift (fmt : Fmt) (den : ℕ) : ℕ := fmt.fraction + 3 + den.log2

/-- The quotient `fp_norm` cuts. -/
def normQuotient (fmt : Fmt) (num den : ℕ) : ℕ := num * 2 ^ normShift fmt den / den

/-- The weight of the last bit of a fraction. -/
def normUnit (fmt : Fmt) (r : ℤ × ℕ) : ℚ := 2 ^ (r.1 - 128 - fmt.fraction)

/-- The number an exponent and a fraction stand for. -/
def normValue (fmt : Fmt) (r : ℤ × ℕ) : ℚ := r.2 * normUnit fmt r

section Norm

variable (fmt : Fmt) (chop : Bool) {num den : ℕ} (e : ℤ)

/-- `fp_norm` is the first `L` bits of the quotient; a carry out of them moves the exponent up. -/
theorem fpNorm_cases (num den : ℕ) :
    let q := normQuotient fmt num den
    let k : ℤ := bitLength q - normShift fmt den + e
    (firstBits chop fmt.fraction q = 2 ^ fmt.fraction
        ∧ fpNorm fmt chop num den e = (k + 129, 2 ^ (fmt.fraction - 1)))
      ∨ (firstBits chop fmt.fraction q ≠ 2 ^ fmt.fraction
        ∧ fpNorm fmt chop num den e = (k + 128, firstBits chop fmt.fraction q)) := by
  intro q k
  by_cases h : firstBits chop fmt.fraction q = 2 ^ fmt.fraction
  · exact .inl ⟨h, if_pos h⟩
  · exact .inr ⟨h, if_neg h⟩

theorem fraction_lt_bitLength (hn : 0 < num) (hd : 0 < den) :
    fmt.fraction < bitLength (normQuotient fmt num den) := by
  have hden : den ≤ 2 ^ (den.log2 + 1) := Nat.lt_log2_self.le
  have hbig : 2 ^ fmt.fraction ≤ normQuotient fmt num den := by
    rw [normQuotient, Nat.le_div_iff_mul_le hd, normShift]
    calc 2 ^ fmt.fraction * den ≤ 2 ^ fmt.fraction * 2 ^ (den.log2 + 1) := Nat.mul_le_mul_left _ hden
      _ = 2 ^ (fmt.fraction + (den.log2 + 1)) := (pow_add ..).symm
      _ ≤ 2 ^ (fmt.fraction + 3 + den.log2) := Nat.pow_le_pow_right two_pos (by omega)
      _ ≤ num * 2 ^ (fmt.fraction + 3 + den.log2) := Nat.le_mul_of_pos_left _ hn
  exact (lt_bitLength_iff (by have := Nat.two_pow_pos fmt.fraction; omega)).mpr hbig

/-- The quotient is the number, moved up, without its rest. -/
theorem normQuotient_bounds (hd : 0 < den) (num : ℕ) :
    (normQuotient fmt num den : ℚ) * 2 ^ (e - normShift fmt den) ≤ num / den * 2 ^ e
      ∧ (num : ℚ) / den * 2 ^ e < (normQuotient fmt num den + 1 : ℕ) * 2 ^ (e - normShift fmt den) := by
  have hdq : (0 : ℚ) < den := by exact_mod_cast hd
  have hunit : (0 : ℚ) < 2 ^ (e - normShift fmt den) := by positivity
  have hscale : (num : ℚ) / den * 2 ^ e = (num * 2 ^ normShift fmt den : ℕ) / den * 2 ^ (e - normShift fmt den) := by
    push_cast
    rw [zpow_sub₀ two_ne_zero, zpow_natCast]
    field_simp
  rw [hscale, mul_le_mul_iff_left₀ hunit, mul_lt_mul_iff_left₀ hunit, le_div_iff₀ hdq, div_lt_iff₀ hdq]
  have hlow : normQuotient fmt num den * den ≤ num * 2 ^ normShift fmt den := Nat.div_mul_le_self _ _
  have hhigh : num * 2 ^ normShift fmt den < (normQuotient fmt num den + 1) * den :=
    Nat.lt_mul_of_div_lt (Nat.lt_succ_self _) hd
  exact ⟨by exact_mod_cast hlow, by exact_mod_cast hhigh⟩

theorem fpNorm_fraction (hn : 0 < num) (hd : 0 < den) :
    2 ^ (fmt.fraction - 1) ≤ (fpNorm fmt chop num den e).2 ∧ (fpNorm fmt chop num den e).2 < 2 ^ fmt.fraction := by
  have hbounds := firstBits_bounds chop fmt.fraction_pos (fraction_lt_bitLength fmt hn hd)
  rcases fpNorm_cases fmt chop e num den with ⟨-, h⟩ | ⟨hne, h⟩ <;> rw [h]
  · exact ⟨le_rfl, Nat.pow_lt_pow_right one_lt_two (Nat.sub_lt fmt.fraction_pos one_pos)⟩
  · exact ⟨hbounds.1, lt_of_le_of_ne hbounds.2 hne⟩

/-- The weight of the last of the first `L` bits is the unit, or half of it after a carry. -/
theorem fpNorm_weight (hn : 0 < num) (hd : 0 < den) :
    let q := normQuotient fmt num den
    let weight : ℚ := (2 ^ (bitLength q - fmt.fraction) : ℕ) * 2 ^ (e - normShift fmt den)
    normValue fmt (fpNorm fmt chop num den e) = firstBits chop fmt.fraction q * weight
      ∧ weight ≤ normUnit fmt (fpNorm fmt chop num den e) := by
  intro q weight
  have hlt : fmt.fraction < bitLength q := fraction_lt_bitLength fmt hn hd
  have hweight : weight = 2 ^ ((bitLength q : ℤ) - normShift fmt den + e - fmt.fraction) := by
    simp only [weight]
    push_cast
    rw [← zpow_natCast, ← zpow_add₀ two_ne_zero, Nat.cast_sub hlt.le]
    congr 1
    ring
  rw [hweight]
  rcases fpNorm_cases fmt chop e num den with ⟨hF, h⟩ | ⟨-, h⟩ <;> rw [normValue, normUnit, h]
  · have hcarry : (bitLength q : ℤ) - normShift fmt den + e - fmt.fraction
        ≤ bitLength q - normShift fmt den + e + 129 - 128 - fmt.fraction := by omega
    refine ⟨?_, zpow_le_zpow_right₀ one_le_two hcarry⟩
    rw [hF]
    push_cast
    rw [← zpow_natCast, ← zpow_natCast, ← zpow_add₀ two_ne_zero, ← zpow_add₀ two_ne_zero, Nat.cast_sub fmt.fraction_pos]
    congr 1
    push_cast
    ring
  · have hexponent : (bitLength q : ℤ) - normShift fmt den + e + 128 - 128 - fmt.fraction
        = bitLength q - normShift fmt den + e - fmt.fraction := by ring
    rw [hexponent]
    exact ⟨rfl, le_rfl⟩

/-- A comparison of whole numbers, weighed. -/
theorem weighed_le {m n : ℕ} (h : m ≤ n) : (m : ℚ) * 2 ^ (e - normShift fmt den) ≤ n * 2 ^ (e - normShift fmt den) :=
  mul_le_mul_of_nonneg_right (by exact_mod_cast h) (by positivity)

/-- Chopped, the number is the largest of the format not above the exact one (R487). -/
theorem fpNorm_chopped (hn : 0 < num) (hd : 0 < den) :
    let r := fpNorm fmt true num den e
    normValue fmt r ≤ num / den * 2 ^ e ∧ (num : ℚ) / den * 2 ^ e < normValue fmt r + normUnit fmt r := by
  intro r
  obtain ⟨hvalue, hunit⟩ := fpNorm_weight fmt true e hn hd
  obtain ⟨hlow, hhigh⟩ := normQuotient_bounds fmt e hd num
  obtain ⟨hfloor, hceil⟩ := firstBits_chopped (l := fmt.fraction) (q := normQuotient fmt num den)
  have hfloor' := weighed_le fmt e (den := den) hfloor
  have hceil' := weighed_le fmt e (den := den) hceil
  rw [hvalue]
  push_cast at hunit hfloor' hceil' hhigh ⊢
  constructor <;> linarith

/-- Rounded, the number is within half a unit of the exact one (R487). -/
theorem fpNorm_rounded (hn : 0 < num) (hd : 0 < den) :
    let r := fpNorm fmt false num den e
    normValue fmt r - num / den * 2 ^ e ≤ normUnit fmt r / 2
      ∧ (num : ℚ) / den * 2 ^ e - normValue fmt r < normUnit fmt r / 2 := by
  intro r
  obtain ⟨hvalue, hunit⟩ := fpNorm_weight fmt false e hn hd
  obtain ⟨hlow, hhigh⟩ := normQuotient_bounds fmt e hd num
  obtain ⟨hfloor, hceil⟩ := firstBits_rounded (fraction_lt_bitLength fmt hn hd)
  have hfloor' := weighed_le fmt e (den := den) hfloor
  have hceil' := weighed_le fmt e (den := den) hceil
  rw [hvalue]
  push_cast at hunit hfloor' hceil' hhigh ⊢
  constructor <;> linarith

/-- The quotient of a whole number is the number, moved up. -/
theorem normQuotient_one (num : ℕ) :
    normQuotient fmt num 1 = num * 2 ^ (fmt.fraction + 3) ∧ normShift fmt 1 = fmt.fraction + 3 := by
  have hshift : normShift fmt 1 = fmt.fraction + 3 := rfl
  exact ⟨by rw [normQuotient, hshift, Nat.div_one], hshift⟩

/-- A whole number that has no more bits than a fraction is not rounded. -/
theorem fpNorm_exact (hn : 0 < num) (h : num < 2 ^ fmt.fraction) :
    normValue fmt (fpNorm fmt chop num 1 e) = num * 2 ^ e := by
  obtain ⟨hvalue, -⟩ := fpNorm_weight fmt chop e hn one_pos
  obtain ⟨hq, hshift⟩ := normQuotient_one fmt num
  rw [hvalue, hq, hshift, ← mul_assoc, ← Nat.cast_mul, firstBits_exact chop hn.ne' h (by omega)]
  push_cast
  rw [mul_assoc, ← zpow_natCast, ← zpow_add₀ two_ne_zero]
  congr 2
  push_cast
  ring

/-- The exponent of a whole number is that of its first bit, or one above it when rounding carries out of the fraction
(R487). -/
theorem fpNorm_exponent (hn : 0 < num) :
    (fpNorm fmt chop num 1 e).1 = bitLength num + e + 128
      ∨ (chop = false ∧ fpNorm fmt chop num 1 e = (bitLength num + e + 129, 2 ^ (fmt.fraction - 1))) := by
  obtain ⟨hq, hshift⟩ := normQuotient_one fmt num
  have hk : (bitLength (normQuotient fmt num 1) : ℤ) - normShift fmt 1 + e = bitLength num + e := by
    rw [hq, hshift, bitLength_mul_two_pow hn.ne']
    push_cast
    ring
  rcases fpNorm_cases fmt chop e num 1 with ⟨hF, h⟩ | ⟨-, h⟩ <;> rw [hk] at h
  · right
    refine ⟨?_, h⟩
    by_contra hchop
    have hlt := (div_bounds fmt.fraction_pos (fraction_lt_bitLength fmt hn one_pos)).2
    rw [Bool.not_eq_false] at hchop
    rw [hchop, firstBits_chop] at hF
    omega
  · left
    rw [h]

end Norm

end Sys2Proof.Machine

namespace Sys2Proof.Machine

/-! The value packed of a sign, an exponent and a fraction, and what is delivered (R488). -/

section Pack

variable {fmt : Fmt} {f : ℕ} (sign : Bool) (e : ℤ)

theorem fpSign_fpPack (f : ℕ) : fpSign (fpPack fmt sign e f) = sign :=
  BitVec.msb_append.trans (BitVec.msb_ofBool sign)

theorem fpExp_fpPack (f : ℕ) : (fpExp (fpPack fmt sign e f) : ℤ) = e % 256 := by
  have hfield : (fpPack fmt sign e f).extractLsb' 55 8 = BitVec.ofInt 8 e :=
    (BitVec.extractLsb'_append_eq_of_add_le (by decide)).trans BitVec.extractLsb'_append_eq_left
  rw [fpExp, hfield, BitVec.toNat_ofInt]
  omega

/-- The fraction of a packed value, without its hidden bit (R471). -/
theorem fraction_fpPack (hlow : 2 ^ (fmt.fraction - 1) ≤ f) (hhigh : f < 2 ^ fmt.fraction) :
    ((fpPack fmt sign e f).extractLsb' 0 55).toNat + 2 ^ 55 = f * 2 ^ (56 - fmt.fraction) := by
  have hfield : (fpPack fmt sign e f).extractLsb' 0 55 = BitVec.ofNat 55 (f * 2 ^ (56 - fmt.fraction)) :=
    (BitVec.extractLsb'_append_eq_of_add_le (by decide)).trans BitVec.extractLsb'_append_eq_right
  rw [hfield, BitVec.toNat_ofNat]
  cases fmt <;> simp only [Fmt.fraction] at hlow hhigh ⊢ <;> omega

end Pack

/-- The fields of a value are a sign, an exponent taken modulo 256, and a fraction (R488). -/
def IsPacked (fmt : Fmt) (sign : Bool) (r : ℤ × ℕ) (v : Quad) : Prop :=
  fpSign v = sign ∧ (fpExp v : ℤ) = r.1 % 256 ∧ (v.extractLsb' 0 55).toNat + 2 ^ 55 = r.2 * 2 ^ (56 - fmt.fraction)

theorem isPacked_fpPack {fmt : Fmt} {r : ℤ × ℕ} (sign : Bool) (hlow : 2 ^ (fmt.fraction - 1) ≤ r.2)
    (hhigh : r.2 < 2 ^ fmt.fraction) : IsPacked fmt sign r (fpPack fmt sign r.1 r.2) :=
  ⟨fpSign_fpPack sign r.1 r.2, fpExp_fpPack sign r.1 r.2, fraction_fpPack sign r.1 hlow hhigh⟩

/-- A number with a sign. -/
def signed {α : Type} [Neg α] (sign : Bool) (y : α) : α := if sign then -y else y

/-- A value with an exponent in range stands for its fraction at that exponent (R486). -/
theorem IsPacked.fpValue_eq {fmt : Fmt} {sign : Bool} {r : ℤ × ℕ} {v : Quad} (h : IsPacked fmt sign r v)
    (hlow : 1 ≤ r.1) (hhigh : r.1 ≤ 255) : fpValue v = signed sign (normValue fmt r) := by
  obtain ⟨hsign, hexp, hfraction⟩ := h
  have he : (fpExp v : ℤ) = r.1 := by omega
  have hmantissa : ((2 ^ 55 + (v.extractLsb' 0 55).toNat : ℤ) : ℚ) = r.2 * 2 ^ (56 - fmt.fraction : ℕ) := by
    rw [add_comm]
    exact_mod_cast congrArg (Nat.cast (R := ℚ)) hfraction
  have hvalue : ((2 ^ 55 + (v.extractLsb' 0 55).toNat : ℤ) : ℚ) * 2 ^ ((fpExp v : ℤ) - 184) = normValue fmt r := by
    rw [hmantissa, he, normValue, normUnit, mul_assoc, ← zpow_natCast, ← zpow_add₀ two_ne_zero,
      Nat.cast_sub fmt.fraction_le]
    congr 2
    push_cast
    ring
  rw [fpValue, fpMantissa_of_nonzero (by omega), hsign, ← hvalue]
  cases sign
  · rfl
  · exact (congrArg (· * _) (Int.cast_neg _)).trans (neg_mul _ _)

section Limit

variable {md : FpModes} {fmt : Fmt} {sign : Bool} {e : ℤ} {f : ℕ}

theorem fpLimit_inRange (he : 1 ≤ e) (he' : e ≤ 255) :
    fpLimit md fmt sign e f = { value := fpPack fmt sign e f, fv := false, error := none } := by
  rw [fpLimit, if_neg (by omega), if_neg (by omega)]

theorem fpLimit_over (he : 255 < e) : fpLimit md fmt sign e f =
    if md.overflowTraps then { value := fpPack fmt sign e f, fv := true, error := some .overflow }
    else { value := 0, fv := true, error := none } := if_pos he

theorem fpLimit_under (he : e < 1) : fpLimit md fmt sign e f =
    if md.underflowTraps then { value := fpPack fmt sign e f, fv := false, error := some .underflow }
    else Delivered.zero := by
  rw [fpLimit, if_neg (by omega), if_pos he]

end Limit

theorem fpDeliver_zero (md : FpModes) (den : ℕ) (e : ℤ) : fpDeliver md 0 den e = Delivered.zero := rfl

theorem fpDeliver_nonzero (md : FpModes) {num : ℤ} (h : num ≠ 0) (den : ℕ) (e : ℤ) :
    fpDeliver md num den e = fpLimit md md.fmt (decide (num < 0)) (fpNorm md.fmt md.chop num.natAbs den e).1
      (fpNorm md.fmt md.chop num.natAbs den e).2 := if_neg h

/-- The magnitude of an exact number. -/
theorem abs_exact (num : ℤ) (den : ℕ) (e : ℤ) :
    |(num : ℚ) / den * 2 ^ e| = (num.natAbs : ℚ) / den * 2 ^ e := by
  rw [abs_mul, abs_div, Nat.abs_cast, abs_of_pos (a := (2 : ℚ) ^ e) (by positivity), Nat.cast_natAbs, Int.cast_abs]

/-- Settles O44: the fraction by the quotient cut to its first bits, the value by the fields it is packed of. -/
theorem fpDeliveredValue : Obligations.FpDeliveredValue := by
  refine ⟨fun md den e => rfl, fun md num den e hd hn => ?_⟩
  intro x length exponent fraction unit y r packed
  have hpos : 0 < num.natAbs := Int.natAbs_pos.mpr hn
  have hx : |x| = (num.natAbs : ℚ) / den * 2 ^ e := abs_exact num den e
  have hfraction : 2 ^ (length - 1) ≤ fraction ∧ fraction < 2 ^ length := fpNorm_fraction md.fmt md.chop e hpos hd
  have hr : r = fpLimit md md.fmt (decide (num < 0)) exponent fraction := fpDeliver_nonzero md hn den e
  have hpacked : IsPacked md.fmt (decide (num < 0)) (exponent, fraction)
      (fpPack md.fmt (decide (num < 0)) exponent fraction) := isPacked_fpPack _ hfraction.1 hfraction.2
  refine ⟨hfraction, fun hchop => ?chopped, fun hchop => ?rounded, fun he he' => ?inRange, fun he => ?overflow,
    fun he => ?underflow⟩
  case chopped =>
    have h := fpNorm_chopped md.fmt e hpos hd
    rw [← hchop, ← hx] at h
    exact h
  case rounded =>
    have h := fpNorm_rounded md.fmt e hpos hd
    rw [← hchop, ← hx] at h
    exact h
  case inRange =>
    rw [fpLimit_inRange he he'] at hr
    have hvalue := hpacked.fpValue_eq he he'
    simp only [packed]
    rw [hr]
    refine ⟨hpacked, hvalue.trans ?_, rfl, rfl⟩
    simp only [signed, decide_eq_true_eq]
    rfl
  case overflow =>
    rw [fpLimit_over he] at hr
    refine ⟨fun ht => by rw [hr, ht]; rfl, fun ht => ?_⟩
    simp only [packed]
    rw [hr, ht]
    exact ⟨hpacked, rfl, rfl⟩
  case underflow =>
    rw [fpLimit_under he] at hr
    refine ⟨fun ht => by rw [hr, ht]; rfl, fun ht => ?_⟩
    simp only [packed]
    rw [hr, ht]
    exact ⟨hpacked, rfl, rfl⟩

end Sys2Proof.Machine

namespace Sys2Proof.Machine

/-! The exact numbers handed to the delivery, integers and conversions (spec/46_fp_state.md R486, spec/47_fp_instructions.md
R540 to R543, R552 to R555). -/

/-! Signs. -/

theorem signed_intCast (sign : Bool) (n : ℤ) : ((signed sign n : ℤ) : ℚ) = signed sign (n : ℚ) := by
  cases sign
  · rfl
  · exact Int.cast_neg n

theorem signed_natAbs (i : ℤ) : signed (decide (i < 0)) (i.natAbs : ℤ) = i := by
  rw [signed]
  split <;> simp only [decide_eq_true_eq] at * <;> omega

/-- A number is its sign and its magnitude. -/
theorem signed_natAbs_cast (i : ℤ) : signed (decide (i < 0)) (i.natAbs : ℚ) = i := by
  have h := congrArg (Int.cast (R := ℚ)) (signed_natAbs i)
  rwa [signed_intCast, Int.cast_natCast] at h

theorem signed_mul {α : Type} [Mul α] [HasDistribNeg α] (sign : Bool) (x y : α) :
    signed sign x * y = signed sign (x * y) := by
  cases sign
  · rfl
  · exact neg_mul x y

/-- The integer part, toward zero. -/
def towardZero (x : ℚ) : ℤ := if 0 ≤ x then ⌊x⌋ else ⌈x⌉

theorem towardZero_signed (sign : Bool) {y : ℚ} (h : 0 ≤ y) : towardZero (signed sign y) = signed sign ⌊y⌋ := by
  cases sign with
  | false => exact if_pos h
  | true =>
    show towardZero (-y) = -⌊y⌋
    rw [towardZero]
    split
    · rename_i hneg
      rw [show y = 0 by linarith]
      simp
    · exact Int.ceil_neg

/-- The whole part of a number at a power of two. -/
theorem floor_mul_two_zpow (m i j : ℕ) : ⌊(m : ℚ) * 2 ^ ((i : ℤ) - j)⌋ = ((m * 2 ^ i / 2 ^ j : ℕ) : ℤ) := by
  have h := Rat.floor_natCast_div_natCast (m * 2 ^ i) (2 ^ j)
  rw [zpow_sub₀ two_ne_zero, zpow_natCast, zpow_natCast, ← mul_div_assoc]
  exact_mod_cast h

theorem toNat_sub_toNat_neg (e : ℤ) : (e.toNat : ℤ) - ((-e).toNat : ℤ) = e := by omega

/-! Integers. -/

theorem fpValue_zero : fpValue 0 = 0 := by
  rw [fpValue, fpMantissa_of_zero rfl, Int.cast_zero, zero_mul]

theorem bitLength_le_iff {n b : ℕ} (h : n ≠ 0) : bitLength n ≤ b ↔ n < 2 ^ b := by
  rw [← not_lt, lt_bitLength_iff h, not_le]

section Integers

variable (md : FpModes) {i : ℤ}

/-- An integer of at most 64 bits has its exponent in range. -/
theorem fpNorm_integer_inRange (fmt : Fmt) (chop : Bool) {n : ℕ} (hn : 0 < n) (h : n < 2 ^ 64) :
    1 ≤ (fpNorm fmt chop n 1 0).1 ∧ (fpNorm fmt chop n 1 0).1 ≤ 255 := by
  have hlength := (bitLength_le_iff hn.ne').mpr h
  rcases fpNorm_exponent fmt chop 0 hn with he | ⟨-, he⟩ <;> rw [he]
  · omega
  · constructor <;> dsimp only <;> omega

/-- A conversion of an integer is the delivery of it, with no exception (R552). -/
theorem fpDeliver_integer (h : i.natAbs < 2 ^ 64) :
    fpDeliver md i 1 0 = { value := fpOfInt md i, fv := false, error := none } := by
  by_cases hi : i = 0
  · subst hi
    rfl
  · obtain ⟨hlow, hhigh⟩ := fpNorm_integer_inRange md.fmt md.chop (Int.natAbs_pos.mpr hi) h
    rw [fpDeliver_nonzero md hi, fpLimit_inRange hlow hhigh, fpOfInt, if_neg hi]

/-- An integer that fits the fraction is converted exactly (R552). -/
theorem fpValue_fpOfInt (h : i.natAbs < 2 ^ md.fmt.fraction) : fpValue (fpOfInt md i) = i := by
  by_cases hi : i = 0
  · subst hi
    rw [show fpOfInt md 0 = 0 from rfl, fpValue_zero, Int.cast_zero]
  · have hpos : 0 < i.natAbs := Int.natAbs_pos.mpr hi
    have hlimit : 2 ^ md.fmt.fraction ≤ 2 ^ 64 := Nat.pow_le_pow_right two_pos (md.fmt.fraction_le.trans (by decide))
    obtain ⟨hlow, hhigh⟩ := fpNorm_integer_inRange md.fmt md.chop hpos (h.trans_le hlimit)
    obtain ⟨hf, hf'⟩ := fpNorm_fraction md.fmt md.chop 0 hpos one_pos
    rw [fpOfInt, if_neg hi, (isPacked_fpPack (decide (i < 0)) hf hf').fpValue_eq hlow hhigh,
      fpNorm_exact md.fmt md.chop 0 hpos h, zpow_zero, mul_one, signed_natAbs_cast]

end Integers

/-- Truncating gives the integer part (R553). -/
theorem fpTrunc_eq (v : Quad) : fpTrunc v = towardZero (fpValue v) := by
  obtain ⟨sign, m, hm⟩ : ∃ (sign : Bool) (m : ℕ), fpMantissa v = signed sign (m : ℤ) :=
    ⟨_, _, (signed_natAbs (fpMantissa v)).symm⟩
  have hvalue : fpValue v = signed sign ((m : ℚ) * 2 ^ ((fpExp v : ℤ) - 184)) := by
    rw [fpValue, hm, signed_intCast, signed_mul, Int.cast_natCast]
  rw [hvalue, towardZero_signed _ (by positivity), ← toNat_sub_toNat_neg ((fpExp v : ℤ) - 184), floor_mul_two_zpow]
  rw [fpTrunc, hm]
  split
  · rename_i he
    rw [signed_mul, show (-((fpExp v : ℤ) - 184)).toNat = 0 by omega, pow_zero, Nat.div_one]
    push_cast
    rfl
  · rename_i he
    rw [show ((fpExp v : ℤ) - 184).toNat = 0 by omega, pow_zero, Nat.mul_one, Int.ofNat_tdiv, Nat.cast_pow]
    cases sign
    · rfl
    · exact Int.neg_tdiv _ _

/-! Sums, differences, products and quotients. -/

/-- The delivery of an exact number (R486, R488). -/
def Delivers (md : FpModes) (r : Delivered) (x : ℚ) : Prop :=
  ∃ (num : ℤ) (den : ℕ) (e : ℤ), 0 < den ∧ r = fpDeliver md num den e ∧ (num : ℚ) / den * 2 ^ e = x

theorem delivers_integer (md : FpModes) {num e : ℤ} {x : ℚ} (h : (num : ℚ) * 2 ^ e = x) :
    Delivers md (fpDeliver md num 1 e) x :=
  ⟨num, 1, e, one_pos, rfl, by rw [Nat.cast_one, div_one, h]⟩

theorem fpAdd_delivers (md : FpModes) (a v : Quad) : Delivers md (fpAdd md a v) (fpValue a + fpValue v) :=
  delivers_integer md (fpSumMantissa_value a v)

theorem fpSub_delivers (md : FpModes) (a v : Quad) : Delivers md (fpSub md a v) (fpValue a - fpValue v) := by
  rw [sub_eq_add_neg, ← fpValue_fpNegate]
  exact fpAdd_delivers md a _

/-- The product of two values over their exponents (R542). -/
theorem fpProduct_value (a v : Quad) :
    ((fpMantissa a * fpMantissa v : ℤ) : ℚ) * 2 ^ ((fpExp a : ℤ) + fpExp v - 368) = fpValue a * fpValue v := by
  rw [fpValue, fpValue, show (fpExp a : ℤ) + fpExp v - 368 = (fpExp a - 184) + (fpExp v - 184) by ring,
    zpow_add₀ two_ne_zero]
  push_cast
  ring

theorem fpMul_delivers (md : FpModes) (a v : Quad) : Delivers md (fpMul md a v) (fpValue a * fpValue v) :=
  delivers_integer md (fpProduct_value a v)

theorem fpDiv_delivers (md : FpModes) (a : Quad) {v : Quad} (h : fpExp v ≠ 0) :
    Delivers md (fpDiv md a v) (fpValue a / fpValue v) := by
  have hm : fpMantissa v ≠ 0 := mt (fpMantissa_eq_zero_iff v).mp h
  refine ⟨_, _, _, Int.natAbs_pos.mpr hm, rfl, ?_⟩
  have hsign : ((fpMantissa v).sign : ℚ) * fpMantissa v = (fpMantissa v).natAbs := by
    have h := congrArg (Int.cast (R := ℚ)) (Int.sign_mul_self (fpMantissa v))
    rwa [Int.cast_mul, Int.cast_natCast] at h
  have hmq : (fpMantissa v : ℚ) ≠ 0 := by exact_mod_cast hm
  have habs : ((fpMantissa v).natAbs : ℚ) ≠ 0 := by exact_mod_cast Int.natAbs_ne_zero.mpr hm
  have hexp : (fpExp a : ℤ) - fpExp v = (fpExp a - 184) - (fpExp v - 184) := by ring
  rw [fpValue, fpValue, hexp, zpow_sub₀ two_ne_zero, mul_div_mul_comm]
  congr 1
  push_cast
  rw [div_eq_div_iff habs hmq, ← hsign]
  ring

/-! Conversion to F (R554, R555). -/

theorem bitLength_fpMantissa {v : Quad} (h : fpExp v ≠ 0) : bitLength (fpMantissa v).natAbs = 56 := by
  have hlt := (v.extractLsb' 0 55).isLt
  rw [natAbs_fpMantissa h, bitLength_eq_iff (by omega)]
  omega

/-- Only a carry takes a D value out of the range of exponents, and then to the least fraction at exponent 256, of which the
low eight bits are those of 0. -/
theorem fpNarrow_eq (md : FpModes) (v : Quad) :
    fpNarrow md v = fpDeliver { md with fmt := .f } (fpMantissa v) 1 ((fpExp v : ℤ) - 184) := by
  by_cases hv : fpExp v = 0
  · rw [fpNarrow, if_pos ((fpZero_iff v).mpr hv), fpMantissa_of_zero hv, fpDeliver_zero]
  · have hm : fpMantissa v ≠ 0 := mt (fpMantissa_eq_zero_iff v).mp hv
    have hexp : fpExp v < 256 := (v.extractLsb' 55 8).isLt
    have hsign : decide (fpMantissa v < 0) = fpSign v := by
      rw [Bool.eq_iff_iff, decide_eq_true_iff, fpMantissa_lt_zero_iff hv]
    have hnorm := fpNorm_exponent .f md.chop ((fpExp v : ℤ) - 184) (Int.natAbs_pos.mpr hm)
    rw [bitLength_fpMantissa hv] at hnorm
    rw [fpNarrow, if_neg (mt (fpZero_iff v).mp hv), fpDeliver_nonzero _ hm, hsign]
    dsimp only
    split
    · rename_i hover
      have hcarry : fpNorm .f md.chop (fpMantissa v).natAbs 1 ((fpExp v : ℤ) - 184) = (256, 2 ^ 23) := by
        rcases hnorm with h | ⟨-, h⟩
        · omega
        · rw [h] at hover ⊢
          exact Prod.ext (by dsimp only at hover ⊢; omega) rfl
      rw [hcarry]
      exact (fpLimit_over (e := 256) (by decide)).symm
    · rename_i hover
      refine (fpLimit_inRange ?_ (by omega)).symm
      rcases hnorm with h | ⟨-, h⟩ <;> rw [h]
      · omega
      · dsimp only
        omega

theorem fpConvert_delivers (md : FpModes) (v : Quad) :
    Delivers { md with fmt := .f } (fpConvert md .d v) (fpValue v) := by
  rw [show fpConvert md .d v = fpNarrow md v from rfl, fpNarrow_eq]
  exact delivers_integer _ rfl

theorem fpConvert_f (md : FpModes) (v : Quad) :
    fpConvert md .f v = { value := if fpExp v = 0 then 0 else v, fv := false, error := none } := by
  simp only [fpConvert, fpZero_iff]

end Sys2Proof.Machine

namespace Sys2Proof.Machine

/-! MODF (spec/47_fp_instructions.md R544): the product by its mantissa and its exponent K, and the parts of it in each range
of K. -/

/-- The mantissa of the product of two values. -/
def productMantissa (a v : Quad) : ℤ := fpMantissa a * fpMantissa v

/-- The exponent the mantissa of the product is taken at. -/
def productExponent (a v : Quad) : ℤ := (fpExp a : ℤ) + fpExp v - 368

/-- The magnitude of the mantissa of the product. -/
def productBits (a v : Quad) : ℕ := (productMantissa a v).natAbs

/-- The product is negative. -/
def productSign (a v : Quad) : Bool := decide (productMantissa a v < 0)

/-- `K` of R544: the product has its first bit below 2 ^ K. -/
def productTop (a v : Quad) : ℤ := bitLength (productBits a v) + productExponent a v

section Product

variable (a v : Quad)

theorem product_eq :
    fpValue a * fpValue v = signed (productSign a v) ((productBits a v : ℚ) * 2 ^ productExponent a v) := by
  rw [← fpProduct_value, ← signed_mul, productSign, productBits, signed_natAbs_cast]
  rfl

theorem abs_product : |fpValue a * fpValue v| = (productBits a v : ℚ) * 2 ^ productExponent a v := by
  have hnonneg : (0 : ℚ) ≤ (productBits a v : ℚ) * 2 ^ productExponent a v := by positivity
  rw [product_eq]
  cases productSign a v
  · exact abs_of_nonneg hnonneg
  · exact (abs_neg _).trans (abs_of_nonneg hnonneg)

theorem product_eq_zero_iff : fpValue a * fpValue v = 0 ↔ productMantissa a v = 0 := by
  rw [← fpProduct_value, mul_eq_zero_iff_right (by positivity), Int.cast_eq_zero]
  rfl

variable {a v}

theorem product_neg_iff : fpValue a * fpValue v < 0 ↔ productMantissa a v < 0 := by
  have hunit : (0 : ℚ) < 2 ^ productExponent a v := by positivity
  have hscaled := mul_lt_mul_iff_left₀ (b := (productMantissa a v : ℚ)) (c := 0) hunit
  rw [zero_mul, Int.cast_lt_zero] at hscaled
  rw [← fpProduct_value]
  exact hscaled

theorem productBits_pos (h : productMantissa a v ≠ 0) : 0 < productBits a v := Int.natAbs_pos.mpr h

/-- K bounds the product (R544). -/
theorem product_bounds (h : productMantissa a v ≠ 0) :
    (2 : ℚ) ^ (productTop a v - 1) ≤ |fpValue a * fpValue v| ∧ |fpValue a * fpValue v| < 2 ^ productTop a v := by
  have hunit : (0 : ℚ) < 2 ^ productExponent a v := by positivity
  have hlength := bitLength_pos (productBits a v)
  have power (n : ℕ) : ((2 ^ n : ℕ) : ℚ) * 2 ^ productExponent a v = 2 ^ ((n : ℤ) + productExponent a v) := by
    rw [Nat.cast_pow, Nat.cast_ofNat, ← zpow_natCast, ← zpow_add₀ two_ne_zero]
  have hexp : productTop a v - 1 = ((bitLength (productBits a v) - 1 : ℕ) : ℤ) + productExponent a v := by
    rw [productTop]
    omega
  constructor
  · rw [hexp, ← power, abs_product, mul_le_mul_iff_left₀ hunit]
    exact_mod_cast bitLength_le (productBits_pos h).ne'
  · rw [productTop, ← power, abs_product, mul_lt_mul_iff_left₀ hunit]
    exact_mod_cast lt_bitLength _

/-- The powers of two about a number determine K. -/
theorem productTop_eq {K : ℤ} (hlow : (2 : ℚ) ^ (K - 1) ≤ |fpValue a * fpValue v|)
    (hhigh : |fpValue a * fpValue v| < 2 ^ K) : productMantissa a v ≠ 0 ∧ K = productTop a v := by
  have hpos : 0 < |fpValue a * fpValue v| := lt_of_lt_of_le (by positivity) hlow
  have hne : productMantissa a v ≠ 0 := mt (product_eq_zero_iff a v).mpr (abs_pos.mp hpos)
  obtain ⟨hfloor, hceil⟩ := product_bounds hne
  have hle := (zpow_lt_zpow_iff_right₀ (one_lt_two (α := ℚ))).mp (hlow.trans_lt hceil)
  have hge := (zpow_lt_zpow_iff_right₀ (one_lt_two (α := ℚ))).mp (hfloor.trans_lt hhigh)
  exact ⟨hne, by omega⟩

/-- A product of two mantissas has at most 112 bits. -/
theorem bitLength_productBits (h : productMantissa a v ≠ 0) : bitLength (productBits a v) ≤ 112 := by
  have short {x : Quad} (hx : fpMantissa x ≠ 0) : (fpMantissa x).natAbs < 2 ^ 56 := by
    rw [← bitLength_fpMantissa (mt (fpMantissa_eq_zero_iff x).mpr hx)]
    exact lt_bitLength _
  obtain ⟨ha, hv⟩ := mul_ne_zero_iff.mp h
  rw [bitLength_le_iff (productBits_pos h).ne', productBits, productMantissa, Int.natAbs_mul,
    show (2 : ℕ) ^ 112 = 2 ^ 56 * 2 ^ 56 by norm_num]
  exact Nat.mul_lt_mul'' (short ha) (short hv)

end Product

/-! The product chopped to the length of a fraction. -/

/-- The first bits of the product (R544). -/
def productChopped (fmt : Fmt) (a v : Quad) : ℕ := productBits a v * 2 ^ fmt.fraction / 2 ^ bitLength (productBits a v)

section Chopped

variable (fmt : Fmt) {a v : Quad}

theorem productChopped_bounds (h : productMantissa a v ≠ 0) :
    2 ^ (fmt.fraction - 1) ≤ productChopped fmt a v ∧ productChopped fmt a v < 2 ^ fmt.fraction := by
  have hbits := productBits_pos h
  have hpos := bitLength_pos (productBits a v)
  rw [productChopped, Nat.le_div_iff_mul_le (by positivity), Nat.div_lt_iff_lt_mul (by positivity)]
  constructor
  · have hl := fmt.fraction_pos
    have hsum : fmt.fraction - 1 + bitLength (productBits a v) = bitLength (productBits a v) - 1 + fmt.fraction := by omega
    rw [← pow_add, hsum, pow_add]
    exact Nat.mul_le_mul_right _ (bitLength_le hbits.ne')
  · rw [Nat.mul_comm (2 ^ _)]
    exact Nat.mul_lt_mul_of_pos_right (lt_bitLength _) (by positivity)

theorem floor_product (K : ℤ) (hK : K = productTop a v) :
    ⌊|fpValue a * fpValue v| * 2 ^ ((fmt.fraction : ℤ) - K)⌋ = productChopped fmt a v := by
  rw [abs_product, mul_assoc, ← zpow_add₀ two_ne_zero, productChopped, ← floor_mul_two_zpow, hK, productTop]
  congr 3
  ring

end Chopped

/-! The integer part and the rest of a product whose exponent lies in its fraction. -/

/-- The integer part of the magnitude of the product. -/
def productFloor (a v : Quad) : ℕ :=
  productBits a v * 2 ^ (productExponent a v).toNat / 2 ^ (-productExponent a v).toNat

/-- The rest, over `2 ^ (-productExponent a v).toNat`. -/
def productRest (a v : Quad) : ℕ :=
  productBits a v * 2 ^ (productExponent a v).toNat % 2 ^ (-productExponent a v).toNat

section Parts

variable (a v : Quad)

theorem floor_abs_product : ⌊|fpValue a * fpValue v|⌋ = productFloor a v := by
  rw [abs_product, productFloor, ← floor_mul_two_zpow, toNat_sub_toNat_neg]

theorem towardZero_product : towardZero (fpValue a * fpValue v) = signed (productSign a v) (productFloor a v : ℤ) := by
  rw [product_eq, towardZero_signed _ (by positivity), ← abs_product, floor_abs_product]

/-- The product is its integer part and its rest. -/
theorem product_sub_towardZero : fpValue a * fpValue v - towardZero (fpValue a * fpValue v)
    = signed (productSign a v) (productRest a v : ℚ) * 2 ^ (-((-productExponent a v).toNat : ℤ)) := by
  have hparts : (productBits a v : ℚ) * 2 ^ productExponent a v
      = productFloor a v + productRest a v * 2 ^ (-((-productExponent a v).toNat : ℤ)) := by
    have hdiv := Nat.div_add_mod (productBits a v * 2 ^ (productExponent a v).toNat) (2 ^ (-productExponent a v).toNat)
    rw [← productFloor, ← productRest] at hdiv
    have hdivq := congrArg (Nat.cast (R := ℚ)) hdiv
    push_cast at hdivq
    conv_lhs => rw [← toNat_sub_toNat_neg (productExponent a v), zpow_sub₀ two_ne_zero, zpow_natCast, zpow_natCast,
      ← mul_div_assoc, ← hdivq]
    rw [zpow_neg, zpow_natCast]
    field_simp
  rw [towardZero_product, signed_intCast, product_eq, hparts, signed_mul]
  cases productSign a v <;> simp only [signed] <;> push_cast <;> ring

end Parts

end Sys2Proof.Machine

namespace Sys2Proof.Machine

/-! What MODF leaves, case by case (spec/47_fp_instructions.md R544), and the exact operands. -/

section Cases

variable {md : FpModes} {free a v : Quad}

theorem fpMod_zero (h : productMantissa a v = 0) : fpMod md free a v = { whole := 0, part := Delivered.zero } := if_pos h

/-- Case 1: the product overflows. -/
theorem fpMod_overflow (h : productMantissa a v ≠ 0) (hK : 127 < productTop a v) :
    fpMod md free a v = if md.overflowTraps then
        { whole := fpPack md.fmt (productSign a v) (productTop a v + 128) (productChopped md.fmt a v),
          part := { value := 0, fv := true, error := some .overflow } }
      else { whole := 0, part := { value := 0, fv := true, error := none } } := by
  have hover : 0o377 < productTop a v + 128 := by omega
  exact (if_neg h).trans (if_pos hover)

/-- Case 2: the product has no fraction part. -/
theorem fpMod_whole (h : productMantissa a v ≠ 0) (hK : md.fmt.fraction < productTop a v) (hK' : productTop a v ≤ 127) :
    fpMod md free a v = { whole := fpPack md.fmt (productSign a v) (productTop a v + 128) (productChopped md.fmt a v),
                          part := Delivered.zero } := by
  have hover : ¬0o377 < productTop a v + 128 := by omega
  exact (if_neg h).trans ((if_neg hover).trans (if_pos hK))

/-- The fraction part of a product with both parts, from the rest; the free bits aside. -/
def restPacked (md : FpModes) (a v : Quad) : Quad :=
  let r := fpNorm md.fmt md.chop (productRest a v) 1 (-((-productExponent a v).toNat : ℤ))
  fpPack md.fmt (productSign a v) r.1 r.2

/-- The fraction part of a product with both parts (R544, I27). -/
def restDelivered (md : FpModes) (free a v : Quad) : Quad :=
  if productRest a v = 0 then 0
  else if md.fmt = .d ∧ 8 < productTop a v then freeLowBits (productTop a v - 8).toNat free (restPacked md a v)
  else restPacked md a v

/-- Cases 3 and 4: the product has both parts. -/
theorem fpMod_both (h : productMantissa a v ≠ 0) (hK : 1 ≤ productTop a v) (hK' : productTop a v ≤ md.fmt.fraction) :
    fpMod md free a v =
      { whole := fpPack md.fmt (productSign a v) (fpNorm md.fmt true (productFloor a v) 1 0).1
          (fpNorm md.fmt true (productFloor a v) 1 0).2,
        part := { value := restDelivered md free a v, fv := false, error := none } } := by
  have hlength := md.fmt.fraction_le
  have hover : ¬0o377 < productTop a v + 128 := by omega
  have hwhole : ¬(md.fmt.fraction : ℤ) < productTop a v := by omega
  exact (if_neg h).trans ((if_neg hover).trans ((if_neg hwhole).trans (if_pos hK)))

/-- The enable of the overflow trap does not matter where nothing overflows. -/
theorem fpLimit_noOverflow {fmt : Fmt} {sign : Bool} {e : ℤ} {f : ℕ} (he : e ≤ 255) :
    fpLimit { md with overflowTraps := false } fmt sign e f = fpLimit md fmt sign e f := by
  have hover : ¬0o377 < e := not_lt.mpr he
  rw [fpLimit, fpLimit, if_neg hover, if_neg hover]

/-- Case 5: the product has no integer part. -/
theorem fpMod_fraction (h : productMantissa a v ≠ 0) (hK : productTop a v ≤ 0) :
    fpMod md free a v =
      { whole := 0,
        part := fpLimit { md with overflowTraps := false } md.fmt (productSign a v)
          (fpNorm md.fmt md.chop (productBits a v) 1 (productExponent a v)).1
          (fpNorm md.fmt md.chop (productBits a v) 1 (productExponent a v)).2 } := by
  have hover : ¬0o377 < productTop a v + 128 := by omega
  have hwhole : ¬(md.fmt.fraction : ℤ) < productTop a v := by omega
  have hboth : ¬1 ≤ productTop a v := by omega
  exact (if_neg h).trans ((if_neg hover).trans ((if_neg hwhole).trans (if_neg hboth)))

end Cases

/-! The parts as numbers. -/

theorem natAbs_signed (sign : Bool) (n : ℕ) : (signed sign (n : ℤ)).natAbs = n := by
  cases sign
  · rfl
  · exact Int.natAbs_neg _

theorem signed_lt_zero {n : ℕ} (sign : Bool) (h : 0 < n) : decide (signed sign (n : ℤ) < 0) = sign := by
  rw [signed]
  cases sign <;> simp [h]

/-- The bits above the free ones are kept (I27, log 29). -/
theorem getLsbD_freeLowBits {n j : ℕ} (free v : Quad) (h : n ≤ j) : (freeLowBits n free v).getLsbD j = v.getLsbD j := by
  by_cases hj : j < 64
  · have hmask : (BitVec.ofNat 64 (2 ^ n - 1)).getLsbD j = false := by
      rw [BitVec.getLsbD_ofNat, Nat.testBit_two_pow_sub_one, decide_eq_false (Nat.not_lt.mpr h), Bool.and_false]
    simp only [freeLowBits, BitVec.getLsbD_or, BitVec.getLsbD_and, BitVec.getLsbD_not, hmask, hj, decide_true,
      Bool.not_false, Bool.and_true, Bool.and_false, Bool.or_false]
  · rw [BitVec.getLsbD_of_ge _ _ (by omega), BitVec.getLsbD_of_ge _ _ (by omega)]

section Clauses

variable {md : FpModes} {free a v : Quad} (h : productMantissa a v ≠ 0)

include h

theorem isPacked_productChopped :
    IsPacked md.fmt (productSign a v) (productTop a v + 128, productChopped md.fmt a v)
      (fpPack md.fmt (productSign a v) (productTop a v + 128) (productChopped md.fmt a v)) :=
  have hbounds := productChopped_bounds md.fmt h
  isPacked_fpPack (productSign a v) hbounds.1 hbounds.2

/-- The product without a fraction part stands for its first bits (R544). -/
theorem fpValue_productChopped (hK : md.fmt.fraction < productTop a v) (hK' : productTop a v ≤ 127) :
    fpValue (fpPack md.fmt (productSign a v) (productTop a v + 128) (productChopped md.fmt a v))
      = towardZero (fpValue a * fpValue v * 2 ^ ((md.fmt.fraction : ℤ) - productTop a v))
        * 2 ^ (productTop a v - md.fmt.fraction) := by
  have hexp : productTop a v + 128 - 128 - (md.fmt.fraction : ℤ) = productTop a v - md.fmt.fraction := by ring
  rw [(isPacked_productChopped h).fpValue_eq (by dsimp only; omega) (by dsimp only; omega), normValue, normUnit, hexp,
    product_eq, signed_mul, towardZero_signed _ (by positivity), ← abs_product, floor_product md.fmt _ rfl, signed_intCast,
    signed_mul, Int.cast_natCast]

section Both

variable (hK : 1 ≤ productTop a v)

include hK

theorem productExponent_ge : -111 ≤ productExponent a v := by
  have hbits := bitLength_productBits h
  rw [productTop] at hK
  omega

/-- The integer part is at least 1 and has no more bits than K says. -/
theorem productFloor_bounds : 0 < productFloor a v ∧ productFloor a v < 2 ^ (productTop a v).toNat := by
  obtain ⟨hlow, hhigh⟩ := product_bounds h
  have hone : (1 : ℚ) ≤ 2 ^ (productTop a v - 1) := one_le_zpow₀ one_le_two (by omega)
  have hfloor : (0 : ℤ) < productFloor a v := by
    rw [← floor_abs_product, Int.floor_pos]
    exact hone.trans hlow
  have hceil : (productFloor a v : ℤ) < (2 ^ (productTop a v).toNat : ℕ) := by
    rw [← floor_abs_product, Int.floor_lt]
    push_cast
    rwa [← zpow_natCast, Int.toNat_of_nonneg (by omega)]
  exact ⟨by exact_mod_cast hfloor, by exact_mod_cast hceil⟩

theorem fpValue_productFloor (hK' : productTop a v ≤ md.fmt.fraction) :
    fpValue (fpPack md.fmt (productSign a v) (fpNorm md.fmt true (productFloor a v) 1 0).1
      (fpNorm md.fmt true (productFloor a v) 1 0).2) = towardZero (fpValue a * fpValue v) := by
  obtain ⟨hpos, hlt⟩ := productFloor_bounds h hK
  have hfits : productFloor a v < 2 ^ md.fmt.fraction :=
    hlt.trans_le (Nat.pow_le_pow_right two_pos (by omega))
  have hlimit : 2 ^ md.fmt.fraction ≤ 2 ^ 64 := Nat.pow_le_pow_right two_pos (md.fmt.fraction_le.trans (by decide))
  obtain ⟨hlow, hhigh⟩ := fpNorm_integer_inRange md.fmt true hpos (hfits.trans_le hlimit)
  obtain ⟨hf, hf'⟩ := fpNorm_fraction md.fmt true 0 hpos one_pos
  rw [(isPacked_fpPack (productSign a v) hf hf').fpValue_eq hlow hhigh, fpNorm_exact md.fmt true 0 hpos hfits, zpow_zero,
    mul_one, towardZero_product, signed_intCast, Int.cast_natCast]

/-- The rest is delivered as it is packed. -/
theorem fpDeliver_rest (hg : productRest a v ≠ 0) :
    fpDeliver md (signed (productSign a v) (productRest a v : ℤ)) 1 (-((-productExponent a v).toNat : ℤ))
      = { value := restPacked md a v, fv := false, error := none } := by
  have hpos : 0 < productRest a v := Nat.pos_of_ne_zero hg
  have hne : signed (productSign a v) (productRest a v : ℤ) ≠ 0 := by
    rw [← Int.natAbs_ne_zero, natAbs_signed]
    exact hg
  have hexp := productExponent_ge h hK
  have hlength : bitLength (productRest a v) ≤ (-productExponent a v).toNat :=
    (bitLength_le_iff hg).mpr (Nat.mod_lt _ (by positivity))
  have hnorm := fpNorm_exponent md.fmt md.chop (-((-productExponent a v).toNat : ℤ)) hpos
  have hlow := bitLength_pos (productRest a v)
  rw [fpDeliver_nonzero md hne, natAbs_signed, signed_lt_zero _ hpos, restPacked]
  refine fpLimit_inRange ?_ ?_
  all_goals
    rcases hnorm with he | ⟨-, he⟩ <;> rw [he]
    · omega
    · dsimp only
      omega

/-- The fraction part of a product with both parts: what is delivered of the rest, but for the free bits (R544, I27). -/
theorem restDelivered_spec :
    ((towardZero (fpValue a * fpValue v) : ℚ) = fpValue a * fpValue v → restDelivered md free a v = 0)
      ∧ ∃ q, Delivers md q (fpValue a * fpValue v - towardZero (fpValue a * fpValue v))
        ∧ ∀ j : ℕ, (md.fmt = .f ∨ productTop a v - 8 ≤ j) →
          (restDelivered md free a v).getLsbD j = q.value.getLsbD j := by
  have hvalue : ((signed (productSign a v) (productRest a v : ℤ) : ℤ) : ℚ) * 2 ^ (-((-productExponent a v).toNat : ℤ))
      = fpValue a * fpValue v - towardZero (fpValue a * fpValue v) := by
    rw [product_sub_towardZero, signed_intCast, Int.cast_natCast]
  refine ⟨fun hwhole => ?_, _, delivers_integer md hvalue, fun j hj => ?_⟩
  · have hrest := product_sub_towardZero a v
    rw [hwhole, sub_self] at hrest
    have hsigned := (mul_eq_zero.mp hrest.symm).resolve_right (by positivity)
    have hzero : productRest a v = 0 := by
      cases hs : productSign a v <;> simpa [hs, signed] using hsigned
    rw [restDelivered, if_pos hzero]
  · by_cases hg : productRest a v = 0
    · rw [restDelivered, if_pos hg, hg]
      cases productSign a v <;> rfl
    · rw [fpDeliver_rest h hK hg, restDelivered, if_neg hg]
      split
      · rename_i hfree
        refine getLsbD_freeLowBits free _ ?_
        rcases hj with hf | hj
        · rw [hfree.1] at hf
          cases hf
        · omega
      · rfl

end Both

/-- A product below 1 is delivered as it is (R544). -/
theorem productFraction_delivers (hK : productTop a v ≤ 0) :
    Delivers md (fpLimit { md with overflowTraps := false } md.fmt (productSign a v)
      (fpNorm md.fmt md.chop (productBits a v) 1 (productExponent a v)).1
      (fpNorm md.fmt md.chop (productBits a v) 1 (productExponent a v)).2) (fpValue a * fpValue v) := by
  have hpos := productBits_pos h
  have hnotover : (fpNorm md.fmt md.chop (productBits a v) 1 (productExponent a v)).1 ≤ 255 := by
    rw [productTop] at hK
    rcases fpNorm_exponent md.fmt md.chop (productExponent a v) hpos with he | ⟨-, he⟩ <;> rw [he]
    · omega
    · dsimp only
      omega
  have hlimit : fpDeliver md (productMantissa a v) 1 (productExponent a v)
      = fpLimit { md with overflowTraps := false } md.fmt (productSign a v)
        (fpNorm md.fmt md.chop (productBits a v) 1 (productExponent a v)).1
        (fpNorm md.fmt md.chop (productBits a v) 1 (productExponent a v)).2 := by
    rw [fpLimit_noOverflow hnotover]
    exact fpDeliver_nonzero md h 1 _
  rw [← hlimit]
  exact delivers_integer md (fpProduct_value a v)

end Clauses

/-- Settles O43: each operation hands on an exact number; MODF by the range of the exponent of the product. -/
theorem fpExactOperands : Obligations.FpExactOperands := by
  refine ⟨fun md i => ?integers, fun v => ?trunc, fun md free a v => ?operations⟩
  case integers =>
    intro delivered
    refine ⟨fpValue_fpOfInt md, fun hi => ?_⟩
    have h : delivered = _ := fpDeliver_integer md (hi.trans_lt (by decide))
    exact ⟨by rw [h], by rw [h], by rw [h]⟩
  case trunc =>
    rw [fpTrunc_eq, towardZero]
  case operations =>
    intro delivers
    refine ⟨fpAdd_delivers md a v, fpSub_delivers md a v, fpMul_delivers md a v, fpDiv_delivers md a,
      fpConvert_delivers md v, fpConvert_f md v, ?_⟩
    intro product trunc length r
    refine ⟨fun hzero => fpMod_zero ((product_eq_zero_iff a v).mp hzero), fun K hlow hhigh => ?_⟩
    obtain ⟨hne, rfl⟩ := productTop_eq hlow hhigh
    refine ⟨fun hK => ?overflow, fun hK hK' => ?whole, fun hK hK' => ?both, fun hK => ?fraction⟩
    case overflow =>
      have hr : r = _ := fpMod_overflow hne hK
      obtain ⟨hsign, hexp, hfraction⟩ := isPacked_productChopped (md := md) hne
      have hneg : productSign a v = decide (product < 0) := decide_eq_decide.mpr product_neg_iff.symm
      cases ht : md.overflowTraps with
      | false =>
        rw [ht, if_neg Bool.false_ne_true] at hr
        rw [hr]
        exact ⟨rfl, fun _ => rfl, nofun⟩
      | true =>
        rw [ht, if_pos rfl] at hr
        rw [hr]
        refine ⟨rfl, nofun, fun _ => ⟨hsign.trans hneg, hexp, ?_⟩⟩
        rw [floor_product md.fmt _ rfl]
        exact_mod_cast hfraction
    case whole =>
      have hr : r = _ := fpMod_whole hne hK hK'
      rw [hr]
      exact ⟨rfl, fpValue_productChopped hne hK hK'⟩
    case both =>
      have hr : r = _ := fpMod_both hne hK hK'
      rw [hr]
      exact ⟨fpValue_productFloor hne hK hK', rfl, rfl, restDelivered_spec hne hK⟩
    case fraction =>
      have hr : r = _ := fpMod_fraction hne hK
      rw [hr]
      exact ⟨rfl, productFraction_delivers hne hK⟩

end Sys2Proof.Machine

namespace Sys2Proof.Machine

/-! Commercial instructions: the frame they share, and where they find their operands (spec/48_cis_character.md R580 to R591). -/

/-! The frame. -/

section Frame

variable {s : State} (hcis : s.cfg.cisPresent = true)

include hcis

/-- Begun with PS<8> set, an instruction is unpredictable (R590). -/
theorem runInstr_cisInstr_suspended (hps : s.ps.getLsbD 8 = true) (body : Word → M Unit) :
    runInstr (cisInstr body) s = runInstr (effectUnpredictable (s.regs.pc - 2)) s := by
  simp only [runInstr, cisInstr, run_bind, run_get, hcis, psSuspended, hps, if_true]

/-- Begun with PS<8> clear, it is its body, given the address of the op-code word. -/
theorem cisInstr_run (hps : s.ps.getLsbD 8 = false) (body : Word → M Unit) :
    cisInstr body s = body (s.regs.pc - 2) s := by
  simp only [cisInstr, run_bind, run_get, hcis, psSuspended, hps, if_true, Bool.false_eq_true, if_false]

end Frame

theorem cisDone_run (p : Bool) (k : Codes) (s : State) : cisDone p k s = .ok ⟨⟩ (cisEnd p k s) := by
  have hclear (w : Word) : merge 0o400 0 w = w &&& 0o177377 := by simp [merge]
  simp only [cisDone, run_bind, setCodes_run, run_modify, hclear, cisEnd]

/-- The codes of CMP are those of the comparison (spec/42_double_operand.md R333). -/
theorem aluCmp_eq_cmpCodes {n : Nat} (a b : BitVec n) : aluCmp a b = cmpCodes a b := by
  have hzero : (a - b == 0) = (a == b) := by
    rw [Bool.eq_iff_iff, beq_iff_eq, beq_iff_eq]
    exact sub_eq_zero
  simp only [aluCmp, codesOf, cmpCodes, hzero, BitVec.ult]

/-- One of two things by the form of an instruction. -/
def CisForm.pick {α : Type} (form : CisForm) (register inLine : α) : α :=
  match form with
  | .register => register
  | .inLine => inLine

/-- The registers only the register form updates. -/
theorem inRegisters_run {form : CisForm} {x : M Unit} {s t : State} (h : x s = .ok ⟨⟩ t) :
    form.inRegisters x s = .ok ⟨⟩ (form.pick t s) := by
  cases form with
  | register => exact h
  | inLine => rfl

/-! Descriptors. -/

/-- The descriptor at an address is its first word, then its second (R583). -/
def Describes (a : Word) (s : State) (d : Desc) (t : State) : Prop :=
  ∃ u, readWord a s = .ok d.fst u ∧ readWord (a + 2) u = .ok d.snd t

theorem descMem_run {a : Word} {s t : State} {d : Desc} (h : Describes a s d t) : descMem a s = .ok d t := by
  obtain ⟨u, hfst, hsnd⟩ := h
  exact (bind_of_ok hfst).trans (bind_of_ok hsnd)

theorem loadDesc_run {a q : Word} {s u t : State} {d : Desc} (hq : readWord a s = .ok q u) (h : Describes q u d t) :
    loadDesc a s = .ok d t :=
  (bind_of_ok hq).trans (descMem_run h)

/-! L2Dr and L3Dr. -/

section Loads

variable {s u : State} {r : Reg} {a : Word} (hcis : s.cfg.cisPresent = true) (ha : readReg r s = .ok a u)

include hcis ha

theorem exec_l2d_eq : exec (.l2d r) s = runInstr (do
    let alpha ← loadDesc a
    let beta ← loadDesc (a + 2)
    writeReg r (a + 4)
    writeDesc .r0 .r1 alpha
    writeDesc .r2 .r3 beta) u := by
  show execL2d r s = _
  simp only [execL2d, runInstr, run_bind, run_get, hcis, if_true, ha]

theorem exec_l3d_eq : exec (.l3d r) s = runInstr (do
    let alpha ← loadDesc a
    let beta ← loadDesc (a + 2)
    let gamma ← loadDesc (a + 4)
    writeReg r (a + 6)
    writeDesc .r0 .r1 alpha
    writeDesc .r2 .r3 beta
    writeDesc .r4 .r5 gamma) u := by
  show execL3d r s = _
  simp only [execL3d, runInstr, run_bind, run_get, hcis, if_true, ha]

variable {s1 s2 : State} {x y : Desc} (hx : loadDesc a u = .ok x s1) (hy : loadDesc (a + 2) s1 = .ok y s2)

include hx hy

theorem exec_l2d : exec (.l2d r) s
    = completed (withWords s2 [(r, a + 4), (.r0, x.fst), (.r1, x.snd), (.r2, y.fst), (.r3, y.snd)]) := by
  rw [exec_l2d_eq hcis ha]
  exact runInstr_ok ((bind_of_ok hx).trans (bind_of_ok hy))

theorem exec_l3d {z : Desc} {s3 : State} (hz : loadDesc (a + 4) s2 = .ok z s3) : exec (.l3d r) s
    = completed (withWords s3
      [(r, a + 6), (.r0, x.fst), (.r1, x.snd), (.r2, y.fst), (.r3, y.snd), (.r4, z.fst), (.r5, z.snd)]) := by
  rw [exec_l3d_eq hcis ha]
  exact runInstr_ok ((bind_of_ok hx).trans ((bind_of_ok hy).trans (bind_of_ok hz)))

end Loads

/-! The operands of an in-line form: its words one after the other, then the descriptors they point at (R588, D43). -/

section InLine

variable {s s1 s2 s3 s4 u v t : State} {p q w x : Word} {a b c : Desc}

section TwoWords

variable (hp : fetchWord s = .ok p s1) (hq : fetchWord s1 = .ok q s2)

include hp hq

theorem charSearchOps_inLine (ha : Describes p s2 a t) : charSearchOps .inLine s = .ok (a, q) t :=
  (bind_of_ok hp).trans ((bind_of_ok hq).trans (bind_of_ok (descMem_run ha)))

theorem toLongOps_inLine (ha : Describes p s2 a t) : toLongOps .inLine s = .ok (a, q) t :=
  (bind_of_ok hp).trans ((bind_of_ok hq).trans (bind_of_ok (descMem_run ha)))

variable (ha : Describes p s2 a u) (hb : Describes q u b t)

include ha hb

theorem descPair_inLine : descPair .inLine s = .ok (a, b) t :=
  (bind_of_ok hp).trans ((bind_of_ok hq).trans ((bind_of_ok (descMem_run ha)).trans (bind_of_ok (descMem_run hb))))

theorem twoDescs_inLine (even odd : Reg) : twoDescs .inLine even odd s = .ok (a, b) t :=
  (bind_of_ok hp).trans ((bind_of_ok hq).trans ((bind_of_ok (descMem_run ha)).trans (bind_of_ok (descMem_run hb))))

/-- The low word of a long integer lies lower in memory (spec/49_cis_decimal.md R647). -/
theorem fromLongOps_inLine : fromLongOps .inLine s = .ok (a, { hi := b.snd, lo := b.fst }) t :=
  (bind_of_ok hp).trans ((bind_of_ok hq).trans ((bind_of_ok (descMem_run ha)).trans (bind_of_ok (descMem_run hb))))

end TwoWords

variable (hp : fetchWord s = .ok p s1) (hq : fetchWord s1 = .ok q s2) (hw : fetchWord s2 = .ok w s3)

include hp hq hw

section ThreeWords

variable (ha : Describes p s3 a u) (hb : Describes q u b v)

include ha hb

theorem moveOps_inLine : moveOps .inLine false s = .ok { src := a, dst := b, fill := w, table := 0 } v :=
  (bind_of_ok hp).trans ((bind_of_ok hq).trans ((bind_of_ok hw).trans
    ((bind_of_ok (descMem_run ha)).trans (bind_of_ok (descMem_run hb)))))

theorem compareOps_inLine : compareOps .inLine s = .ok (a, b, w) v :=
  (bind_of_ok hp).trans ((bind_of_ok hq).trans ((bind_of_ok hw).trans
    ((bind_of_ok (descMem_run ha)).trans (bind_of_ok (descMem_run hb)))))

theorem shiftOps_inLine : shiftOps .inLine s = .ok (a, b, w) v :=
  (bind_of_ok hp).trans ((bind_of_ok hq).trans ((bind_of_ok hw).trans
    ((bind_of_ok (descMem_run ha)).trans (bind_of_ok (descMem_run hb)))))

theorem threeDescs_inLine (hc : Describes w v c t) : threeDescs .inLine s = .ok (a, b, c) t :=
  (bind_of_ok hp).trans ((bind_of_ok hq).trans ((bind_of_ok hw).trans
    ((bind_of_ok (descMem_run ha)).trans ((bind_of_ok (descMem_run hb)).trans (bind_of_ok (descMem_run hc))))))

end ThreeWords

theorem moveOps_inLine_translated (hx : fetchWord s3 = .ok x s4) (ha : Describes p s4 a u) (hb : Describes q u b v) :
    moveOps .inLine true s = .ok { src := a, dst := b, fill := w, table := x } v :=
  (bind_of_ok hp).trans ((bind_of_ok hq).trans ((bind_of_ok hw).trans
    ((bind_of_ok hx).trans ((bind_of_ok (descMem_run ha)).trans (bind_of_ok (descMem_run hb))))))

end InLine

/-- Settles O47: the loads by their descriptors, the register forms by their cells, the in-line forms by their words. -/
theorem cisOperands : Obligations.CisOperands := by
  refine ⟨fun s u s1 s2 r a x y hcis ha => ?loads, fun s => ?registers, fun s s1 s2 p q hp hq => ?inLine⟩
  case loads =>
    intro describes hx hy
    have hload : ∀ {p s d t}, describes p s d t → loadDesc p s = .ok d t :=
      fun ⟨_, v, w, hq, hfst, hsnd⟩ => loadDesc_run hq ⟨w, hfst, hsnd⟩
    exact ⟨exec_l2d hcis ha (hload hx) (hload hy), fun z s3 hz => exec_l3d hcis ha (hload hx) (hload hy) (hload hz)⟩
  case registers =>
    exact ⟨fun _ => rfl, rfl, rfl, rfl, rfl, rfl, rfl, rfl, rfl, rfl⟩
  case inLine =>
    intro describes
    refine ⟨fun a t ha => ⟨charSearchOps_inLine hp hq ha, toLongOps_inLine hp hq ha⟩,
      fun a b u t ha hb => ⟨descPair_inLine hp hq ha hb, twoDescs_inLine hp hq ha hb, fromLongOps_inLine hp hq ha hb⟩,
      fun w s3 hw => ⟨fun a b u t ha hb =>
        ⟨moveOps_inLine hp hq hw ha hb, compareOps_inLine hp hq hw ha hb, shiftOps_inLine hp hq hw ha hb⟩,
        fun a b c u v t ha hb hc => threeDescs_inLine hp hq hw ha hb hc,
        fun x s4 a b u t hx ha hb => moveOps_inLine_translated hp hq hw hx ha hb⟩⟩

end Sys2Proof.Machine

namespace Sys2Proof.Machine

/-! The character moves (spec/48_cis_character.md R599 to R602). -/

/-- Two computations with one end are one instruction. -/
theorem runInstr_congr {x y : M Unit} {s t : State} (h : x s = y t) : runInstr x s = runInstr y t := by
  rw [runInstr, h, runInstr]

theorem anyCodes_run (s : State) : ∃ k, anyCodes s = .ok k { s with free := s.free + 1 } := ⟨_, rfl⟩

/-- What a move leaves in the registers: in the register form the number of characters not moved, and three zeros. -/
def MoveOps.ended (m : MoveOps) (form : CisForm) (t : State) : State :=
  form.pick (withWords t [(.r0, m.src.fst - BitVec.ofNat 16 m.count), (.r1, 0), (.r2, 0), (.r3, 0)]) t

theorem moveDone_run (form : CisForm) (m : MoveOps) (p : Bool) (k : Codes) (s : State) :
    moveDone form m p k s = .ok ⟨⟩ (cisEnd p k (m.ended form s)) := by
  cases form <;> exact cisDone_run p k _

/-- The codes of every move are those of comparing the lengths. -/
theorem moveDone_codes (form : CisForm) (m : MoveOps) (p : Bool) (s : State) :
    moveDone form m p m.codes s = .ok ⟨⟩ (cisEnd p (cmpCodes m.src.fst m.dst.fst) (m.ended form s)) := by
  rw [moveDone_run, MoveOps.codes, aluCmp_eq_cmpCodes]

theorem exec_movc (form : CisForm) (s : State) : exec (form.pick .movc .movci) s = runInstr (moveChar form) s := by
  cases form <;> rfl

theorem exec_movrc (form : CisForm) (s : State) : exec (form.pick .movrc .movrci) s = runInstr (moveReverse form) s := by
  cases form <;> rfl

theorem exec_movtc (form : CisForm) (s : State) :
    exec (form.pick .movtc .movtci) s = runInstr (moveTranslated form) s := by
  cases form <;> rfl

section Moves

variable {s s1 : State} {form : CisForm} {m : MoveOps} (hcis : s.cfg.cisPresent = true) (hps : s.ps.getLsbD 8 = false)

include hcis hps

section Plain

variable (hm : moveOps form false s = .ok m s1)

include hm

/-- MOVC once its operands are there: the part that is moved is read whole, then the destination is stored. -/
theorem moveChar_of_fill (hf : highByte m.fill = 0) : moveChar form s = (do
    let t ← readBytes (byteAddrs m.src.snd m.count)
    let p ← storeBytes m.dst.snd (t ++ List.replicate m.padding (lowByte m.fill))
    moveDone form m p m.codes) s1 :=
  (cisInstr_run hcis hps _).trans ((bind_of_ok hm).trans (congrFun (if_pos hf) s1))

theorem moveChar_unpredictable (hf : highByte m.fill ≠ 0) :
    moveChar form s = effectUnpredictable (s.regs.pc - 2) s1 :=
  (cisInstr_run hcis hps _).trans ((bind_of_ok hm).trans (congrFun (if_neg hf) s1))

/-- MOVRC: the part that is moved ends where the source ends, and the fill characters come first. -/
theorem moveReverse_of_fill (hf : highByte m.fill = 0) : moveReverse form s = (do
    let t ← readBytes (byteAddrs (m.src.snd + (m.src.fst - BitVec.ofNat 16 m.count)) m.count)
    let p ← storeBytes m.dst.snd (List.replicate m.padding (lowByte m.fill) ++ t)
    moveDone form m p m.codes) s1 :=
  (cisInstr_run hcis hps _).trans ((bind_of_ok hm).trans (congrFun (if_pos hf) s1))

theorem moveReverse_unpredictable (hf : highByte m.fill ≠ 0) :
    moveReverse form s = effectUnpredictable (s.regs.pc - 2) s1 :=
  (cisInstr_run hcis hps _).trans ((bind_of_ok hm).trans (congrFun (if_neg hf) s1))

end Plain

section Translated

variable (hm : moveOps form true s = .ok m s1)

include hm

theorem moveTranslated_unpredictable (hf : highByte m.fill ≠ 0) :
    moveTranslated form s = effectUnpredictable (s.regs.pc - 2) s1 :=
  (cisInstr_run hcis hps _).trans ((bind_of_ok hm).trans (congrFun (if_neg hf) s1))

variable (hf : highByte m.fill = 0)

include hf

theorem moveTranslated_unreadable (ht : s1.tableReadable m.table = false) :
    moveTranslated form s = effectUnpredictable (s.regs.pc - 2) s1 := by
  refine (cisInstr_run hcis hps _).trans ((bind_of_ok hm).trans ((congrFun (if_pos hf) s1).trans ?_))
  simp only [withTable, run_bind, run_get, ht, Bool.false_eq_true, if_false]

variable (ht : s1.tableReadable m.table = true)

include ht

/-- A destination that overlaps the table takes free bytes (R602). -/
theorem moveTranslated_of_overlap
    (ho : s1.overlaps (byteAddrs m.dst.snd m.dst.fst.toNat) (byteAddrs m.table 256) = true) :
    moveTranslated form s = (do
      let _ ← readBytes (byteAddrs m.src.snd m.count)
      let free ← anyBytes m.dst.fst.toNat
      let p ← storeBytes m.dst.snd free
      moveDone form m p (← anyCodes)) s1 := by
  refine (cisInstr_run hcis hps _).trans ((bind_of_ok hm).trans ((congrFun (if_pos hf) s1).trans ?_))
  simp only [withTable, run_bind, run_get, ht, ho, if_true]

/-- Any other takes the translations of the characters, then the fill characters. -/
theorem moveTranslated_of_disjoint
    (ho : s1.overlaps (byteAddrs m.dst.snd m.dst.fst.toNat) (byteAddrs m.table 256) = false) :
    moveTranslated form s = (do
      let t ← readBytes (byteAddrs m.src.snd m.count)
      let p ← storeTranslated m.table m.dst.snd t
      let q ← storeBytes (m.dst.snd + BitVec.ofNat 16 m.count) (List.replicate m.padding (lowByte m.fill))
      moveDone form m (p || q) m.codes) s1 := by
  refine (cisInstr_run hcis hps _).trans ((bind_of_ok hm).trans ((congrFun (if_pos hf) s1).trans ?_))
  simp only [withTable, run_bind, run_get, ht, ho, Bool.false_eq_true, if_false, if_true]

end Translated

end Moves

/-- Settles O48: each move by its reads and its stores; a free end where the table is overlapped. -/
theorem characterMoves : Obligations.CharacterMoves := by
  refine ⟨fun s hcis hps => ?suspended, fun s s1 form translated m hcis hps hm => ?moves⟩
  case suspended =>
    repeat refine List.forall_mem_cons.mpr ⟨runInstr_cisInstr_suspended hcis hps _, ?_⟩
    exact List.forall_mem_nil _
  case moves =>
    intro n filling cleared ends unpredictable moves
    refine ⟨fun hf => ?fill, fun hf htr => ?table, fun hf => ⟨fun htr bytes s2 p t hr hw => ?movc,
      fun htr bytes s2 p t hr hw => ?movrc, fun htr ht ho bytes s2 s3 p q t hr hw hw' => ?movtc⟩⟩
    case fill =>
      cases translated with
      | false =>
        have hmovc := runInstr_congr (moveChar_unpredictable hcis hps hm hf)
        have hmovrc := runInstr_congr (moveReverse_unpredictable hcis hps hm hf)
        cases form <;> exact List.forall_mem_cons.mpr ⟨hmovc, List.forall_mem_singleton.mpr hmovrc⟩
      | true =>
        have hmovtc := runInstr_congr (moveTranslated_unpredictable hcis hps hm hf)
        cases form <;> exact List.forall_mem_singleton.mpr hmovtc
    case table =>
      subst htr
      refine ⟨fun ht => (exec_movtc form s).trans (runInstr_congr (moveTranslated_unreadable hcis hps hm hf ht)),
        fun ht ho bytes s2 free s3 p t hr ha hw => ?_⟩
      obtain ⟨k, hk⟩ := anyCodes_run t
      exact ⟨k, (exec_movtc form s).trans (runInstr_ok ((moveTranslated_of_overlap hcis hps hm hf ht ho).trans
        ((bind_of_ok hr).trans ((bind_of_ok ha).trans ((bind_of_ok hw).trans ((bind_of_ok hk).trans
          (moveDone_run form m p k _)))))))⟩
    case movc =>
      subst htr
      exact (exec_movc form s).trans (runInstr_ok ((moveChar_of_fill hcis hps hm hf).trans
        ((bind_of_ok hr).trans ((bind_of_ok hw).trans (moveDone_codes form m p t)))))
    case movrc =>
      subst htr
      exact (exec_movrc form s).trans (runInstr_ok ((moveReverse_of_fill hcis hps hm hf).trans
        ((bind_of_ok hr).trans ((bind_of_ok hw).trans (moveDone_codes form m p t)))))
    case movtc =>
      subst htr
      exact (exec_movtc form s).trans (runInstr_ok ((moveTranslated_of_disjoint hcis hps hm hf ht ho).trans
        ((bind_of_ok hr).trans ((bind_of_ok hw).trans ((bind_of_ok hw').trans (moveDone_codes form m (p || q) t))))))

end Sys2Proof.Machine

namespace Sys2Proof.Machine

/-! The searches, the comparison and the match (spec/48_cis_character.md R604 to R611). -/

/-- What a search leaves that has found `i`: the rest of the string in R0 and R1, and the codes of its length (R604). -/
def Desc.searched (d : Desc) (i : Nat) (t : State) : State :=
  let left := d.fst - BitVec.ofNat 16 i
  cisEnd false { n := left.getLsbD 15, z := left == 0, v := false, c := false }
    (withWords t [(.r0, left), (.r1, d.snd + BitVec.ofNat 16 i)])

theorem searchResult_run (d : Desc) (i : Nat) (s : State) : searchResult d i s = .ok ⟨⟩ (d.searched i s) :=
  cisDone_run false _ _

theorem searchFor_run {src : Desc} {stop : Byte → M Bool} {i : Nat} {s t : State}
    (h : searchFrom stop 0 (byteAddrs src.snd src.fst.toNat) s = .ok i t) :
    searchFor src stop s = .ok ⟨⟩ (src.searched i t) :=
  (bind_of_ok h).trans (searchResult_run src i t)

theorem exec_locc (form : CisForm) (s : State) : exec (form.pick .locc .locci) s = runInstr (locateChar form) s := by
  cases form <;> rfl

theorem exec_skpc (form : CisForm) (s : State) : exec (form.pick .skpc .skpci) s = runInstr (skipChar form) s := by
  cases form <;> rfl

theorem exec_scanc (form : CisForm) (s : State) : exec (form.pick .scanc .scanci) s = runInstr (scanSet form) s := by
  cases form <;> rfl

theorem exec_spanc (form : CisForm) (s : State) : exec (form.pick .spanc .spanci) s = runInstr (spanSet form) s := by
  cases form <;> rfl

theorem exec_cmpc (form : CisForm) (s : State) : exec (form.pick .cmpc .cmpci) s = runInstr (compareChar form) s := by
  cases form <;> rfl

theorem exec_matc (form : CisForm) (s : State) : exec (form.pick .matc .matci) s = runInstr (matchChar form) s := by
  cases form <;> rfl

theorem withSet_readable {op : Word} {d : Desc} {s : State} (hd : highByte d.fst = 0) (ht : s.tableReadable d.snd = true)
    (k : Byte → Word → M Unit) : withSet op d k s = k (lowByte d.fst) d.snd s := by
  simp only [withSet, hd, if_true, withTable, run_bind, run_get, ht]

theorem withSet_unpredictable {op : Word} {d : Desc} {s : State}
    (h : highByte d.fst ≠ 0 ∨ s.tableReadable d.snd = false) (k : Byte → Word → M Unit) :
    withSet op d k s = effectUnpredictable op s := by
  by_cases hd : highByte d.fst = 0
  · have ht := h.resolve_left (not_not_intro hd)
    simp only [withSet, hd, if_true, withTable, run_bind, run_get, ht, Bool.false_eq_true, if_false]
  · exact congrFun (if_neg hd) s

section Searches

variable {s s1 : State} {form : CisForm} {src : Desc} (hcis : s.cfg.cisPresent = true) (hps : s.ps.getLsbD 8 = false)

include hcis hps

section Char

variable {w : Word} (hops : charSearchOps form s = .ok (src, w) s1)

include hops

theorem locateChar_of_char (hw : highByte w = 0) :
    locateChar form s = searchFor src (fun b => pure (b == lowByte w)) s1 :=
  (cisInstr_run hcis hps _).trans ((bind_of_ok hops).trans (congrFun (if_pos hw) s1))

theorem locateChar_unpredictable (hw : highByte w ≠ 0) : locateChar form s = effectUnpredictable (s.regs.pc - 2) s1 :=
  (cisInstr_run hcis hps _).trans ((bind_of_ok hops).trans (congrFun (if_neg hw) s1))

theorem skipChar_of_char (hw : highByte w = 0) :
    skipChar form s = searchFor src (fun b => pure (b != lowByte w)) s1 :=
  (cisInstr_run hcis hps _).trans ((bind_of_ok hops).trans (congrFun (if_pos hw) s1))

theorem skipChar_unpredictable (hw : highByte w ≠ 0) : skipChar form s = effectUnpredictable (s.regs.pc - 2) s1 :=
  (cisInstr_run hcis hps _).trans ((bind_of_ok hops).trans (congrFun (if_neg hw) s1))

end Char

section Set

variable {set : Desc} (hops : twoDescs form .r4 .r5 s = .ok (src, set) s1)

include hops

theorem scanSet_of_set (hm : highByte set.fst = 0) (ht : s1.tableReadable set.snd = true) :
    scanSet form s = searchFor src (inSet (lowByte set.fst) set.snd) s1 :=
  (cisInstr_run hcis hps _).trans ((bind_of_ok hops).trans (withSet_readable hm ht _))

theorem scanSet_unpredictable (h : highByte set.fst ≠ 0 ∨ s1.tableReadable set.snd = false) :
    scanSet form s = effectUnpredictable (s.regs.pc - 2) s1 :=
  (cisInstr_run hcis hps _).trans ((bind_of_ok hops).trans (withSet_unpredictable h _))

theorem spanSet_of_set (hm : highByte set.fst = 0) (ht : s1.tableReadable set.snd = true) :
    spanSet form s = searchFor src (fun c => (fun b => !b) <$> inSet (lowByte set.fst) set.snd c) s1 :=
  (cisInstr_run hcis hps _).trans ((bind_of_ok hops).trans (withSet_readable hm ht _))

theorem spanSet_unpredictable (h : highByte set.fst ≠ 0 ∨ s1.tableReadable set.snd = false) :
    spanSet form s = effectUnpredictable (s.regs.pc - 2) s1 :=
  (cisInstr_run hcis hps _).trans ((bind_of_ok hops).trans (withSet_unpredictable h _))

end Set

end Searches

/-- Settles O49: each search is one scan of its string, and ends as `searchResult` does. -/
theorem characterSearches : Obligations.CharacterSearches := by
  refine ⟨fun s hcis hps => ?suspended, fun s s1 t form src hcis hps => ?searches⟩
  case suspended =>
    repeat refine List.forall_mem_cons.mpr ⟨runInstr_cisInstr_suspended hcis hps _, ?_⟩
    exact List.forall_mem_nil _
  case searches =>
    intro finds addresses unpredictable
    refine ⟨fun w hops hw => ?char, fun set hops h => ?set, fun w index hops hw => ⟨fun h => ?locc, fun h => ?skpc⟩,
      fun set index hops hm ht => ⟨fun h => ?scanc, fun h => ?spanc⟩⟩
    case char =>
      have hlocc := runInstr_congr (locateChar_unpredictable hcis hps hops hw)
      have hskpc := runInstr_congr (skipChar_unpredictable hcis hps hops hw)
      cases form <;> exact List.forall_mem_cons.mpr ⟨hlocc, List.forall_mem_singleton.mpr hskpc⟩
    case set =>
      have hscanc := runInstr_congr (scanSet_unpredictable hcis hps hops h)
      have hspanc := runInstr_congr (spanSet_unpredictable hcis hps hops h)
      cases form <;> exact List.forall_mem_cons.mpr ⟨hscanc, List.forall_mem_singleton.mpr hspanc⟩
    case locc =>
      exact (exec_locc form s).trans (runInstr_ok ((locateChar_of_char hcis hps hops hw).trans (searchFor_run h)))
    case skpc =>
      exact (exec_skpc form s).trans (runInstr_ok ((skipChar_of_char hcis hps hops hw).trans (searchFor_run h)))
    case scanc =>
      exact (exec_scanc form s).trans (runInstr_ok ((scanSet_of_set hcis hps hops hm ht).trans (searchFor_run h)))
    case spanc =>
      exact (exec_spanc form s).trans (runInstr_ok ((spanSet_of_set hcis hps hops hm ht).trans (searchFor_run h)))

section Compares

variable {s s1 : State} {form : CisForm} {a b : Desc} (hcis : s.cfg.cisPresent = true) (hps : s.ps.getLsbD 8 = false)

include hcis hps

section Fill

variable {w : Word} (hops : compareOps form s = .ok (a, b, w) s1)

include hops

theorem compareChar_of_fill (hw : highByte w = 0) : compareChar form s = (do
    let (i, unequal) ← compareFrom a b (lowByte w) (max a.fst.toNat b.fst.toNat) 0
    form.inRegisters (do
      writeDesc .r0 .r1 (a.dropFront i)
      writeDesc .r2 .r3 (b.dropFront i))
    cisDone false (compareCodes unequal)) s1 :=
  (cisInstr_run hcis hps _).trans ((bind_of_ok hops).trans (congrFun (if_pos hw) s1))

theorem compareChar_unpredictable (hw : highByte w ≠ 0) :
    compareChar form s = effectUnpredictable (s.regs.pc - 2) s1 :=
  (cisInstr_run hcis hps _).trans ((bind_of_ok hops).trans (congrFun (if_neg hw) s1))

end Fill

/-- A vacuous source has no place to try (R611). -/
theorem matchChar_run (hops : twoDescs form .r2 .r3 s = .ok (a, b) s1) : matchChar form s = (do
    let found ← matchFrom a b (if a.fst = 0 then 0 else a.fst.toNat + 1 - b.fst.toNat) 0
    searchResult a (found.getD a.fst.toNat)) s1 :=
  (cisInstr_run hcis hps _).trans (bind_of_ok hops)

end Compares

/-- What a comparison leaves in the registers: in the register form the rests of both strings (R610). -/
def comparedAt (a b : Desc) (form : CisForm) (i : Nat) (t : State) : State :=
  form.pick (withWords t [(.r0, (a.dropFront i).fst), (.r1, (a.dropFront i).snd), (.r2, (b.dropFront i).fst),
    (.r3, (b.dropFront i).snd)]) t

theorem compareEnd_run (a b : Desc) (form : CisForm) (i : Nat) (k : Codes) (s : State) :
    (do
      form.inRegisters (do
        writeDesc .r0 .r1 (a.dropFront i)
        writeDesc .r2 .r3 (b.dropFront i))
      cisDone false k) s = .ok ⟨⟩ (cisEnd false k (comparedAt a b form i s)) := by
  cases form <;> exact cisDone_run false k _

theorem compareCodes_eq (unequal : Option (Byte × Byte)) : compareCodes unequal = match unequal with
    | some (c1, c2) => cmpCodes c1 c2
    | none => { n := false, z := true, v := false, c := false } := by
  rcases unequal with _ | ⟨c1, c2⟩
  · rfl
  · exact aluCmp_eq_cmpCodes c1 c2

/-- Settles O50: the comparison and the match are one scan each. -/
theorem compareAndMatch : Obligations.CompareAndMatch := by
  refine ⟨fun s hcis hps => ?suspended, fun s s1 t form a b hcis hps => ⟨fun w hops hw => ?unpredictable,
    fun w index unequal hops hw h => ?cmpc, fun found hops h => ?matc⟩⟩
  case suspended =>
    repeat refine List.forall_mem_cons.mpr ⟨runInstr_cisInstr_suspended hcis hps _, ?_⟩
    exact List.forall_mem_nil _
  case unpredictable =>
    exact (exec_cmpc form s).trans (runInstr_congr (compareChar_unpredictable hcis hps hops hw))
  case cmpc =>
    refine (exec_cmpc form s).trans (runInstr_ok ((compareChar_of_fill hcis hps hops hw).trans ((bind_of_ok h).trans ?_)))
    refine (compareEnd_run a b form index (compareCodes unequal) t).trans ?_
    rw [compareCodes_eq]
    rfl
  case matc =>
    exact (exec_matc form s).trans (runInstr_ok ((matchChar_run hcis hps hops).trans
      ((bind_of_ok h).trans (searchResult_run a _ t))))

end Sys2Proof.Machine

namespace Sys2Proof.Machine

variable {α : Type}

/-! A reference of a commercial instruction that fails (spec/48_cis_character.md R588, R591, spec/60_exceptions.md R705). -/

/-! In-line words and the descriptors they point at. -/

/-- Fetch a number of in-line words, one after the other, and go on with them. -/
def fetching : Nat → (List Word → M α) → M α
  | 0, c => c []
  | n + 1, c => do
    let w ← fetchWord
    fetching n fun ws => c (w :: ws)

/-- Read the descriptors at these addresses, in their order, and go on with them. -/
def describing : List Word → (List Desc → M α) → M α
  | [], c => c []
  | a :: rest, c => do
    let d ← descMem a
    describing rest fun ds => c (d :: ds)

/-- The operands of an in-line form: so many words, then the descriptors at the first of them, then what is made of both. -/
def inLineOps (words pointers : Nat) (f : List Word → List Desc → α) : M α :=
  fetching words fun ws => describing (ws.take pointers) fun ds => pure (f ws ds)

/-- An in-line word, or a descriptor that one of the first words points at, cannot be referenced. -/
def InLineFails (k : AbortKind) (words pointers : Nat) (s u : State) : Prop :=
  fetchFails k words s u ∨ ∃ ws t, ws.length = words ∧ fetchesWords ws s t ∧ descsFail k (ws.take pointers) t u

section Operands

variable {k : AbortKind} {s u : State}

theorem fetching_fails {n : Nat} (c : List Word → M α) (h : fetchFails k n s u) : fetching n c s = .error (.abort k) u := by
  induction n generalizing s c with
  | zero => exact h.elim
  | succ n ih =>
    rcases h with hfetch | ⟨w, t, hfetch, hrest⟩
    · exact bind_of_error hfetch
    · exact (bind_of_ok hfetch).trans (ih _ hrest)

theorem fetching_run {ws : List Word} {t : State} (c : List Word → M α) (h : fetchesWords ws s t) :
    fetching ws.length c s = c ws t := by
  induction ws generalizing s c with
  | nil =>
    obtain rfl := h
    rfl
  | cons w rest ih =>
    obtain ⟨v, hfetch, hrest⟩ := h
    exact (bind_of_ok hfetch).trans (ih _ hrest)

/-- A descriptor cannot be read, or one of those after it. -/
theorem descsFail_cons {a : Word} {rest : List Word} (h : descsFail k (a :: rest) s u) :
    descMem a s = .error (.abort k) u ∨ ∃ d v, descMem a s = .ok d v ∧ descsFail k rest v u := by
  rcases h with hfst | ⟨x, v, hfst, hsnd | ⟨y, w, hsnd, hrest⟩⟩
  · exact .inl (bind_of_error hfst)
  · exact .inl ((bind_of_ok hfst).trans (bind_of_error hsnd))
  · exact .inr ⟨⟨x, y⟩, w, descMem_run ⟨v, hfst, hsnd⟩, hrest⟩

theorem describing_fails {as : List Word} (c : List Desc → M α) (h : descsFail k as s u) :
    describing as c s = .error (.abort k) u := by
  induction as generalizing s c with
  | nil => exact h.elim
  | cons a rest ih =>
    rcases descsFail_cons h with hdesc | ⟨d, v, hdesc, hrest⟩
    · exact bind_of_error hdesc
    · exact (bind_of_ok hdesc).trans (ih _ hrest)

theorem inLineOps_fails {words pointers : Nat} (f : List Word → List Desc → α) (h : InLineFails k words pointers s u) :
    inLineOps words pointers f s = .error (.abort k) u := by
  rcases h with hfetch | ⟨ws, t, rfl, hws, hdescs⟩
  · exact fetching_fails _ hfetch
  · exact (fetching_run _ hws).trans (describing_fails _ hdescs)

/-- A descriptor in a list, where there is one. -/
def descAt (ds : List Desc) (i : Nat) : Desc := ds.getD i { fst := 0, snd := 0 }

theorem charSearchOps_fails (h : InLineFails k 2 1 s u) : charSearchOps .inLine s = .error (.abort k) u :=
  inLineOps_fails (fun ws ds => (descAt ds 0, ws.getD 1 0)) h

theorem toLongOps_fails (h : InLineFails k 2 1 s u) : toLongOps .inLine s = .error (.abort k) u :=
  inLineOps_fails (fun ws ds => (descAt ds 0, ws.getD 1 0)) h

theorem twoDescs_fails (h : InLineFails k 2 2 s u) (even odd : Reg) : twoDescs .inLine even odd s = .error (.abort k) u :=
  inLineOps_fails (fun _ ds => (descAt ds 0, descAt ds 1)) h

theorem descPair_fails (h : InLineFails k 2 2 s u) : descPair .inLine s = .error (.abort k) u :=
  inLineOps_fails (fun _ ds => (descAt ds 0, descAt ds 1)) h

theorem fromLongOps_fails (h : InLineFails k 2 2 s u) : fromLongOps .inLine s = .error (.abort k) u :=
  inLineOps_fails (fun _ ds => (descAt ds 0, Long.mk (descAt ds 1).snd (descAt ds 1).fst)) h

theorem moveOps_fails (h : InLineFails k 3 2 s u) : moveOps .inLine false s = .error (.abort k) u :=
  inLineOps_fails (fun ws ds => MoveOps.mk (descAt ds 0) (descAt ds 1) (ws.getD 2 0) 0) h

theorem compareOps_fails (h : InLineFails k 3 2 s u) : compareOps .inLine s = .error (.abort k) u :=
  inLineOps_fails (fun ws ds => (descAt ds 0, descAt ds 1, ws.getD 2 0)) h

theorem shiftOps_fails (h : InLineFails k 3 2 s u) : shiftOps .inLine s = .error (.abort k) u :=
  inLineOps_fails (fun ws ds => (descAt ds 0, descAt ds 1, ws.getD 2 0)) h

theorem threeDescs_fails (h : InLineFails k 3 3 s u) : threeDescs .inLine s = .error (.abort k) u :=
  inLineOps_fails (fun _ ds => (descAt ds 0, descAt ds 1, descAt ds 2)) h

theorem moveOps_fails_translated (h : InLineFails k 4 2 s u) : moveOps .inLine true s = .error (.abort k) u :=
  inLineOps_fails (fun ws ds => MoveOps.mk (descAt ds 0) (descAt ds 1) (ws.getD 2 0) (ws.getD 3 0)) h

end Operands

section Clauses

variable {k : AbortKind} {s u : State} (hcis : s.cfg.cisPresent = true)

include hcis

/-! The pointers and descriptors of L2Dr and L3Dr. -/

section Loads

variable {r : Reg} {a : Word} {v : State} (ha : readReg r s = .ok a v)

include ha

theorem aborts_load_first (h : loadDesc a v = .error (.abort k) u) : Aborts k s u [.l2d r, .l3d r] :=
  List.forall_mem_cons.mpr ⟨(exec_l2d_eq hcis ha).trans (runInstr_stops (bind_of_error h)),
    aborts_singleton ((exec_l3d_eq hcis ha).trans (runInstr_stops (bind_of_error h)))⟩

theorem aborts_load_second {x : Desc} {w : State} (hx : loadDesc a v = .ok x w)
    (h : loadDesc (a + 2) w = .error (.abort k) u) : Aborts k s u [.l2d r, .l3d r] :=
  List.forall_mem_cons.mpr
    ⟨(exec_l2d_eq hcis ha).trans (runInstr_stops ((bind_of_ok hx).trans (bind_of_error h))),
      aborts_singleton ((exec_l3d_eq hcis ha).trans (runInstr_stops ((bind_of_ok hx).trans (bind_of_error h))))⟩

theorem aborts_load_third {x y : Desc} {w q : State} (hx : loadDesc a v = .ok x w) (hy : loadDesc (a + 2) w = .ok y q)
    (h : loadDesc (a + 4) q = .error (.abort k) u) : Aborts k s u [.l3d r] :=
  aborts_singleton ((exec_l3d_eq hcis ha).trans
    (runInstr_stops ((bind_of_ok hx).trans ((bind_of_ok hy).trans (bind_of_error h)))))

end Loads

/-! The in-line forms. -/

variable (hps : s.ps.getLsbD 8 = false)

include hps

/-- An instruction whose operands cannot be had. -/
theorem cis_stops {x : M α} {c : Word → α → M Unit} (h : x s = .error (.abort k) u) :
    runInstr (cisInstr fun op => x >>= c op) s = abortTrap k u :=
  runInstr_stops ((cisInstr_run hcis hps _).trans (bind_of_error h))

theorem aborts_inLine_two_one (h : InLineFails k 2 1 s u) : Aborts k s u [.locci, .skpci, .cvtnli, .cvtpli] := by
  have hchar {c} := cis_stops (c := c) hcis hps (charSearchOps_fails h)
  have hlong {c} := cis_stops (c := c) hcis hps (toLongOps_fails h)
  simp only [Aborts, List.forall_mem_cons, List.not_mem_nil, false_imp_iff, implies_true, and_true]
  exact ⟨hchar, hchar, hlong, hlong⟩

theorem aborts_inLine_two_two (h : InLineFails k 2 2 s u) :
    Aborts k s u [.scanci, .spanci, .matci, .cmpni, .cmppi, .cvtnpi, .cvtpni, .cvtlni, .cvtlpi] := by
  have htwo {even odd c} := cis_stops (c := c) hcis hps (twoDescs_fails h even odd)
  have hpair {c} := cis_stops (c := c) hcis hps (descPair_fails h)
  have hlong {c} := cis_stops (c := c) hcis hps (fromLongOps_fails h)
  simp only [Aborts, List.forall_mem_cons, List.not_mem_nil, false_imp_iff, implies_true, and_true]
  exact ⟨htwo, htwo, htwo, hpair, hpair, hpair, hpair, hlong, hlong⟩

theorem aborts_inLine_three_two (h : InLineFails k 3 2 s u) :
    Aborts k s u [.movci, .movrci, .cmpci, .ashni, .ashpi] := by
  have hmove {c} := cis_stops (c := c) hcis hps (moveOps_fails h)
  have hcompare {c} := cis_stops (c := c) hcis hps (compareOps_fails h)
  have hshift {c} := cis_stops (c := c) hcis hps (shiftOps_fails h)
  simp only [Aborts, List.forall_mem_cons, List.not_mem_nil, false_imp_iff, implies_true, and_true]
  exact ⟨hmove, hmove, hcompare, hshift, hshift⟩

theorem aborts_inLine_three_three (h : InLineFails k 3 3 s u) :
    Aborts k s u [.addni, .subni, .addpi, .subpi, .mulpi, .divpi] := by
  have hthree {c} := cis_stops (c := c) hcis hps (threeDescs_fails h)
  simp only [Aborts, List.forall_mem_cons, List.not_mem_nil, false_imp_iff, implies_true, and_true]
  exact ⟨hthree, hthree, hthree, hthree, hthree, hthree⟩

theorem aborts_inLine_four_two (h : InLineFails k 4 2 s u) : Aborts k s u [.movtci] :=
  aborts_singleton (cis_stops hcis hps (moveOps_fails_translated h))

end Clauses

/-- Settles O56: each instruction up to the reference that fails, by the equations of its parts. -/
theorem characterAbort : Obligations.CharacterAbort := by
  intro k s u hcis trap
  have htrap : ∀ {is}, Aborts k s u is → trap is := by
    intro is h i hi
    rw [h i hi, abortTrap]
    cases k <;> rfl
  refine ⟨fun r a v ha => ?loads, fun hps => ⟨?inLine, fun form s1 => ?strings⟩⟩
  case loads =>
    intro fails loads
    have hfails : ∀ {p v}, fails p v → loadDesc p v = .error (.abort k) u := by
      rintro p v (hp | ⟨q, w, hp, hq⟩)
      · exact bind_of_error hp
      · refine (bind_of_ok hp).trans ?_
        rcases descsFail_cons hq with hdesc | ⟨_, _, _, hfalse⟩
        · exact hdesc
        · exact hfalse.elim
    have hloads : ∀ {p v w}, loads p v w → ∃ d, loadDesc p v = .ok d w :=
      fun ⟨_, _, lo, y, hi, hq, hlo, hhi⟩ => ⟨⟨lo, hi⟩, loadDesc_run hq ⟨y, hlo, hhi⟩⟩
    refine ⟨fun h => htrap (aborts_load_first hcis ha (hfails h)), fun w hw => ?_⟩
    obtain ⟨d, hd⟩ := hloads hw
    refine ⟨fun h => htrap (aborts_load_second hcis ha hd (hfails h)), fun x hx h => ?_⟩
    obtain ⟨e, he⟩ := hloads hx
    exact htrap (aborts_load_third hcis ha hd he (hfails h))
  case inLine =>
    exact ⟨fun h => htrap (aborts_inLine_two_one hcis hps h), fun h => htrap (aborts_inLine_two_two hcis hps h),
      fun h => htrap (aborts_inLine_three_two hcis hps h), fun h => htrap (aborts_inLine_three_three hcis hps h),
      fun h => htrap (aborts_inLine_four_two hcis hps h)⟩
  case strings =>
    intro traps
    have hone : ∀ {register inLine : Instr}, exec (form.pick register inLine) s = abortTrap k u → traps register inLine :=
      fun h => htrap (aborts_singleton h)
    refine ⟨fun translated m hm hf => ?moves, fun src w hops hw => ?chars, fun src set hops hm ht => ?sets,
      fun a b w hops hw h => ?compare, fun a b hops h => ?trials⟩
    case moves =>
      intro n filling
      refine ⟨fun htr => ?plain, fun htr ht => ?table⟩
      case plain =>
        subst htr
        have hmovc {h} := hone ((exec_movc form s).trans (runInstr_stops ((moveChar_of_fill hcis hps hm hf).trans h)))
        have hmovrc {h} :=
          hone ((exec_movrc form s).trans (runInstr_stops ((moveReverse_of_fill hcis hps hm hf).trans h)))
        exact ⟨fun h => hmovc (h := bind_of_error h), fun h => hmovrc (h := bind_of_error h),
          fun bytes s2 hr h => hmovc (h := (bind_of_ok hr).trans (bind_of_error h)),
          fun bytes s2 hr h => hmovrc (h := (bind_of_ok hr).trans (bind_of_error h))⟩
      case table =>
        subst htr
        cases ho : s1.overlaps (byteAddrs m.dst.snd m.dst.fst.toNat) (byteAddrs m.table 256) with
        | true =>
          have hmovtc {h} :=
            hone ((exec_movtc form s).trans (runInstr_stops ((moveTranslated_of_overlap hcis hps hm hf ht ho).trans h)))
          exact ⟨fun h => hmovtc (h := bind_of_error h), fun bytes s2 hr free s3 ha h =>
            hmovtc (h := (bind_of_ok hr).trans ((bind_of_ok ha).trans (bind_of_error h)))⟩
        | false =>
          have hmovtc {h} :=
            hone ((exec_movtc form s).trans (runInstr_stops ((moveTranslated_of_disjoint hcis hps hm hf ht ho).trans h)))
          exact ⟨fun h => hmovtc (h := bind_of_error h), fun bytes s2 hr =>
            ⟨fun h => hmovtc (h := (bind_of_ok hr).trans (bind_of_error h)), fun p s3 hw h =>
              hmovtc (h := (bind_of_ok hr).trans ((bind_of_ok hw).trans (bind_of_error h)))⟩⟩
    case chars =>
      exact ⟨fun h => hone ((exec_locc form s).trans
          (runInstr_stops ((locateChar_of_char hcis hps hops hw).trans (bind_of_error h)))),
        fun h => hone ((exec_skpc form s).trans
          (runInstr_stops ((skipChar_of_char hcis hps hops hw).trans (bind_of_error h))))⟩
    case sets =>
      exact ⟨fun h => hone ((exec_scanc form s).trans
          (runInstr_stops ((scanSet_of_set hcis hps hops hm ht).trans (bind_of_error h)))),
        fun h => hone ((exec_spanc form s).trans
          (runInstr_stops ((spanSet_of_set hcis hps hops hm ht).trans (bind_of_error h))))⟩
    case compare =>
      exact hone ((exec_cmpc form s).trans
        (runInstr_stops ((compareChar_of_fill hcis hps hops hw).trans (bind_of_error h))))
    case trials =>
      exact hone ((exec_matc form s).trans (runInstr_stops ((matchChar_run hcis hps hops).trans (bind_of_error h))))

end Sys2Proof.Machine

namespace Sys2Proof.Machine

/-! The step that fetches (spec/60_exceptions.md R700, spec/10_state.md R28, R52). -/

/-- No input touches what is left of a step that power failure cuts short. -/
theorem applyInput_left (i : Input) (s : State) : (applyInput i s).bus.left = s.bus.left := by
  cases i with
  | receive u c frm par ovr =>
    simp only [applyInput]
    split <;> cases u <;> rfl
  | clockEdge | powerUp =>
    simp only [applyInput]
    split <;> rfl
  | _ => rfl

/-- A step begins with all its bus cycles before it. -/
theorem tick_left (s : State) : (tick s).bus.left = none := applyInput_left _ _

/-- The state from which the service state fetches: as it was, or with a WAIT ended by a request without a vector. -/
theorem service_fetch {s u : State} (h : service s = .fetch u) : u = s ∨ u = { s with run := .running } := by
  have hhalt : ∀ {u}, serviceHalt s = .fetch u → u = s := by
    intro u hu
    unfold serviceHalt at hu
    split at hu
    · split at hu <;> cases hu
    · split at hu <;> cases hu
      rfl
  unfold service at h
  split at h
  · cases h
  split at h
  · cases h
  split at h
  · cases h
  split at h
  · split at h
    · unfold serviceInterrupt at h
      split at h <;> cases h
      exact .inr rfl
    · exact .inl (hhalt h)
  · exact .inl (hhalt h)

theorem left_of_fetchesFrom {s u : State} (h : fetchesFrom s u) : u.bus.left = none := by
  obtain ⟨-, -, -, ⟨-, rfl⟩ | ⟨-, hservice⟩⟩ := h
  · exact tick_left s
  · rcases service_fetch hservice with rfl | rfl <;> exact tick_left s

/-- The state after the fetch of a word from memory: the DMA masters have had their turn, and the PC has moved on. -/
def State.wordFetched (s : State) : State := { s.granted with regs := { s.regs with pc := s.regs.pc + 2 } }

section Fetch

variable {u : State} {m : Mapped} (hleft : u.bus.left = none) (hm : translate u.mode u.regs.pc false u = .ok m u)
  (h : plainMemory u m.pa = true)

include hleft hm h

theorem fetchWord_plain : fetchWord u = .ok (u.granted.mem.readWord (wordPlace u m.pa)) u.wordFetched := by
  have hgrant : busGrant { u with regs := { u.regs with pc := u.regs.pc + 2 } } = .ok ⟨⟩ u.wordFetched :=
    if_neg (by rw [hleft]; exact nofun)
  rw [fetchWord_run, hm]
  exact busRead_plain hgrant h

/-- The fetch of an op-code word from memory that answers. -/
theorem fetchOpcode_plain :
    fetchOpcode u = .ok (u.granted.mem.readWord (wordPlace u m.pa)) (afterFetch u.granted) := by
  refine (bind_of_ok (run_get u)).trans ((bind_of_ok (fetchWord_plain hleft hm h)).trans ?_)
  have hfrozen : u.granted.frozen = u.wordFetched.frozen := rfl
  simp only [run_bind, run_modify, run_pure, afterFetch, hfrozen]
  split <;> rfl

end Fetch

/-- Settles O4: a step that fetches is the fetch of its word and the decoder's answer. -/
theorem stepRunsDecoded : Obligations.StepRunsDecoded := by
  intro s u m i hfetches hm h g hdecode
  obtain ⟨hi, -⟩ := Prod.mk.inj (Except.ok.inj hdecode)
  have hfetch := fetchOpcode_plain (left_of_fetchesFrom hfetches) hm h
  rw [step_of_fetchesFrom hfetches, fetchAndRun, hfetch, ← hi]
  rfl

/-- Settles O3: each word by the decoder. -/
theorem decodeSamples : Obligations.DecodeSamples :=
  ⟨rfl, rfl, rfl, rfl, rfl, rfl, rfl, rfl, rfl, rfl⟩

end Sys2Proof.Machine

namespace Sys2Proof.Machine

/-! The emergency stack (spec/60_exceptions.md R722). -/

/-! The step in which a trap sequence is due. -/

theorem tick_run_of_no_inputs {s : State} (h : s.inputs = []) : (tick s).run = s.run := by
  rw [tick_eq, h]
  show s.transmitted.run = s.run
  rw [transmitted_frame]

/-- A step with power acts by its run state. -/
theorem step_of_tick {s : State} (hpower : s.run ≠ .poweredDown ∨ s.inputs ≠ []) (h : (tick s).run ≠ .poweredDown) :
    step s = runStateStep (tick s) := by
  unfold step
  cases hi : s.inputs with
  | nil => exact if_neg (hpower.resolve_right (not_not_intro hi))
  | cons i rest =>
    cases i with
    | powerDown n => exact absurd (tick_powerDown hi) h
    | _ => rfl

theorem step_of_trap_due {s : State} {req : TrapRequest} (hpower : s.run ≠ .poweredDown ∨ s.inputs ≠ [])
    (hrun : (tick s).run = .running ∨ (tick s).run = .waiting) (h : (tick s).pend.trap = some req) :
    step s = .next (performTrap req (tick s)) := by
  have hprocessor : processorStep (tick s) = .next (performTrap req (tick s)) := by
    unfold processorStep
    rw [h]
  have hon : (tick s).run ≠ .poweredDown := by
    rcases hrun with hr | hr <;> simp [hr]
  rw [step_of_tick hpower hon, ← hprocessor, runStateStep]
  rcases hrun with hr | hr <;> rw [hr]

/-! A push that times out. -/

theorem performTrap_of_dead_stack {req : TrapRequest} {s a t : State} {newPs : Word}
    (hvector : readWordIn .kernel (req.vector + 2) { s with run := .running } = .ok newPs a)
    (h : trapPushes req.kind a.ps (trapLoaded req.kind newPs a) (.error (.abort .timeout) t)
      ∨ ∃ p d, trapPushes req.kind a.ps (trapLoaded req.kind newPs a) (.ok p d)
        ∧ trapPushes req.kind a.regs.pc d (.error (.abort .timeout) t)) :
    performTrap req s = { t with pend := { t.pend with trap := some { vector := 0o4, kind := .emergency } } } := by
  refine performTrap_of_error (e := .deadStack) ((trapSequence_of_ok hvector).trans ?_)
  rcases h with hps | ⟨p, d, hps, hpc⟩
  · exact bind_of_error (pushTrap_of_trapPushes hps)
  · exact (bind_of_ok (pushTrap_of_trapPushes hps)).trans (bind_of_error (pushTrap_of_trapPushes hpc))

/-! The emergency sequence with its words in memory, the MMU disabled and no DMA. -/

/-- The reference to an address that is not relocated. -/
def unmappedWord (va : Word) : Mapped := { pa := unmapped va, page := none }

/-- The state after a push of the emergency sequence, which notes no stack limit. -/
def State.emergencyPushed (s : State) (mode : Mode) (sp v : Word) : State :=
  State.stored { s with regs := s.regs.withSp mode sp } (unmappedWord sp) .word v

theorem trapPushes_emergency {s : State} {mode : Mode} {sp : Word} (hq : s.quiet = true) (hoff : s.mmu.sr0.getLsbD 0 = false)
    (hmode : s.mode = mode) (hlegal : mode ≠ .illegal) (hsp : spCell s.regs mode = sp)
    (h : plainMemory s (unmapped (sp - 2)) = true) (v : Word) :
    trapPushes .emergency v s (.ok false (s.emergencyPushed mode (sp - 2) v)) := by
  subst hmode hsp
  refine ⟨_, s, readReg_sp rfl hlegal, ?_⟩
  simp only [reduceCtorEq, false_and, if_false]
  exact writeWordIn_plain (s := { s with regs := s.regs.withSp s.mode (spCell s.regs s.mode - 2) }) (m := unmappedWord _)
    (busGrant_quiet hq) (translate_disabled (by exact hoff) _ _ _) h v

/-- The state that loads the PC, both words stacked. -/
def State.emergencyStacked (s : State) (newPs : Word) : State :=
  ((trapLoaded .emergency newPs { s with run := .running }).emergencyPushed (psMode newPs) 2 s.ps).emergencyPushed
    (psMode newPs) 0 s.regs.pc

theorem trapLoaded_mode (kind : TrapKind) (newPs : Word) (s : State) : (trapLoaded kind newPs s).mode = psMode newPs := by
  rw [← psMode_trapPs s.ps newPs, trapPs_eq, trapLoaded]
  split
  · rfl
  · rfl

theorem spCell_trapLoaded_emergency (newPs : Word) (s : State) :
    spCell (trapLoaded .emergency newPs s).regs (psMode newPs) = 4 := by
  rw [← trapLoaded_mode .emergency newPs s]
  exact spCell_withSp_same _ _ _

theorem wordPlace_low (s : State) {pa : PAddr} (h : pa.toNat < 0o1000000) : wordPlace s pa = pa.toNat / 2 * 2 := by
  simp only [wordPlace, evenAddr, memoryAddr]
  cases s.cfg.busWidth with
  | bits18 => dsimp only; omega
  | bits22 => rfl

section Emergency

variable {s : State} (hq : s.quiet = true) (hoff : s.mmu.sr0.getLsbD 0 = false)
  (hlegal : psMode (s.mem.readWord (wordPlace s 0o6)) ≠ .illegal)
  (h0 : plainMemory s 0 = true) (h2 : plainMemory s 0o2 = true) (h4 : plainMemory s 0o4 = true)
  (h6 : plainMemory s 0o6 = true)

include hq hoff hlegal h0 h2 h4 h6

theorem performTrap_emergency :
    let e := s.emergencyStacked (s.mem.readWord (wordPlace s 0o6))
    performTrap { vector := 0o4, kind := .emergency } s = { e with
      regs := { e.regs with pc := e.mem.readWord (wordPlace s 0o4) }, pend := { e.pend with trap := none } } := by
  generalize hps : s.mem.readWord (wordPlace s 0o6) = newPs at hlegal ⊢
  have hvector : readWordIn .kernel (0o4 + 2) { s with run := .running } = .ok newPs { s with run := .running } := by
    rw [← hps]
    exact readWordIn_plain (s := { s with run := .running }) (m := unmappedWord 6) (busGrant_quiet hq)
      (translate_disabled (by exact hoff) _ _ _) h6
  have hloaded := trapLoaded_mode .emergency newPs { s with run := .running }
  have hsp := spCell_trapLoaded_emergency newPs { s with run := .running }
  have hpushPs := trapPushes_emergency (s := trapLoaded .emergency newPs { s with run := .running }) hq hoff hloaded hlegal
    hsp h2 s.ps
  have hpushPc := trapPushes_emergency
    (s := (trapLoaded .emergency newPs { s with run := .running }).emergencyPushed (psMode newPs) 2 s.ps) hq hoff hloaded
    hlegal (spCell_withSp_same _ _ _) h0 s.regs.pc
  have hread : readWordIn .kernel 0o4 (s.emergencyStacked newPs) = .ok _ _ :=
    readWordIn_plain (m := unmappedWord 4) (busGrant_quiet hq) (translate_disabled (by exact hoff) _ _ _) h4
  exact performTrap_of_pushes (req := { vector := 0o4, kind := .emergency }) hvector hpushPs hpushPc hread

end Emergency

theorem emergencyStacked_mem (s : State) (newPs : Word) : (s.emergencyStacked newPs).mem
    = (s.mem.writeLane (wordPlace s 0o2) .word s.ps).writeLane (wordPlace s 0) .word s.regs.pc := rfl

/-- Settles O22: the push that times out makes the emergency sequence due, which stacks at 2 and at 0. -/
theorem emergencyStack : Obligations.EmergencyStack := by
  refine ⟨fun req s a t newPs hvector => performTrap_of_dead_stack hvector,
    fun s req hpower hrun h => step_of_trap_due hpower hrun h, fun s => ?_⟩
  intro newPs t hwf hq hoff hlegal h0 h2 h4 h6
  have ht : t = _ := performTrap_emergency hq hoff hlegal h0 h2 h4 h6
  clear_value t
  subst ht
  have hplace0 : wordPlace s 0 = 0 := wordPlace_low s (by decide)
  have hplace2 : wordPlace s 0o2 = 2 := wordPlace_low s (by decide)
  have hplace4 : wordPlace s 0o4 = 4 := wordPlace_low s (by decide)
  refine ⟨spCell_withSp_same _ _ _, ?ps, ?pc, ?vector, rfl, rfl, rfl⟩
  case ps =>
    show (s.emergencyStacked newPs).mem.readWord _ = _
    rw [emergencyStacked_mem, hplace0, hplace2, Memory.readWord_writeLane_other _ rfl rfl (by decide),
      Memory.readWord_writeLane_same hwf]
  case pc =>
    show (s.emergencyStacked newPs).mem.readWord _ = _
    rw [emergencyStacked_mem, Memory.readWord_writeLane_same (Memory.wf_writeLane _ _ _ hwf)]
  case vector =>
    show (s.emergencyStacked newPs).mem.readWord _ = _
    rw [emergencyStacked_mem, hplace0, hplace2, hplace4, Memory.readWord_writeLane_other _ rfl rfl (by decide),
      Memory.readWord_writeLane_other _ rfl rfl (by decide)]

end Sys2Proof.Machine

namespace Sys2Proof.Machine

/-! What the searches find (spec/48_cis_character.md R584, R605, R610, R611). -/

/-! A table that can be read (R584). -/

/-- Whether a read cycle is answered goes by the parameters alone (spec/20_memory.md R112, R141). -/
theorem readCycle_answers_iff (pa : PAddr) (s : State) : (∃ w t, readCycle pa s = .ok w t) ↔
    if isIoPage pa then (ioDecode s.cfg pa).isSome = true
    else populated s.cfg (wordPlace s pa) = true ∧ s.cfg.parityBad.contains (wordPlace s pa) = false := by
  simp only [readCycle, run_bind, run_get, wordPlace]
  cases isIoPage pa with
  | true =>
    cases ioDecode s.cfg pa with
    | none => simp
    | some r =>
      obtain ⟨w, t, h, -⟩ := readIo_ok r s
      simp [h]
  | false =>
    cases populated s.cfg (evenAddr (memoryAddr s.cfg pa)) <;>
      cases s.cfg.parityBad.contains (evenAddr (memoryAddr s.cfg pa)) <;> simp

theorem readable_iff {s : State} (h : s.bus.left ≠ some 0) (a : Word) :
    s.readable a = true ↔ ∃ m t, readByte a s = .ok m t := by
  have hbyte : readByte a s = readByteIn s.mode a s := rfl
  rw [hbyte, readByteIn, State.readable]
  cases hm : translate s.mode a false s with
  | error e t => simp [bind_of_error hm]
  | ok m u =>
    obtain rfl := (translate_ok hm).1
    have hbus : busRead m.pa u = readCycle m.pa u.granted := bind_of_ok (if_neg h)
    have hanswers : (∃ w t, readCycle m.pa u = .ok w t) ↔ ∃ w t, readCycle m.pa u.granted = .ok w t :=
      (readCycle_answers_iff m.pa u).trans (readCycle_answers_iff m.pa u.granted).symm
    rw [bind_of_ok hm, run_bind, hbus]
    cases hr : readCycle m.pa u <;> cases hg : readCycle m.pa u.granted <;> simp_all

theorem tableReadable_iff {s : State} (h : s.bus.left ≠ some 0) (table : Word) :
    s.tableReadable table = true ↔ ∀ i < 256, ∃ m t, readByte (table + BitVec.ofNat 16 i) s = .ok m t := by
  simp only [State.tableReadable, byteAddrs, List.all_map, List.all_eq_true, List.mem_range, Function.comp_apply,
    readable_iff h]

theorem inSet_run {mask m c : Byte} {table : Word} {s t : State} (h : readByte (table + c.setWidth 16) s = .ok m t) :
    inSet mask table c s = .ok (m &&& mask != 0) t := bind_of_ok h

/-! Strings whose bytes can be read without a side effect. -/

/-- The bytes at these addresses read so, and reading them changes nothing. -/
def Reads (s : State) (addrs : List Word) (bytes : List Byte) : Prop :=
  List.Forall₂ (fun a b => readByte a s = .ok b s) addrs bytes

theorem reads_byteAddrs {s : State} {a : Word} {bytes : List Byte}
    (h : ∀ i (hi : i < bytes.length), readByte (a + BitVec.ofNat 16 i) s = .ok bytes[i] s) :
    Reads s (byteAddrs a bytes.length) bytes := by
  refine List.forall₂_iff_get.mpr ⟨by simp [byteAddrs], fun i _ hi => ?_⟩
  simpa [byteAddrs] using h i hi

theorem readBytes_run {s : State} {addrs : List Word} {bytes : List Byte} (h : Reads s addrs bytes) :
    readBytes addrs s = .ok bytes s := by
  induction h with
  | nil => rfl
  | cons hb _ ih => exact (bind_of_ok hb).trans (bind_of_ok ih)

/-- A search ends at the first byte that satisfies the condition (R605). -/
theorem searchFrom_findIdx {s : State} {stop : Byte → M Bool} {f : Byte → Bool} {addrs : List Word} {bytes : List Byte}
    (hstop : ∀ c, stop c s = .ok (f c) s) (h : Reads s addrs bytes) (i : Nat) :
    searchFrom stop i addrs s = .ok (i + bytes.findIdx f) s := by
  induction h generalizing i with
  | nil => rfl
  | @cons a b addrs bytes hb _ ih =>
    refine (bind_of_ok hb).trans ((bind_of_ok (hstop b)).trans ?_)
    cases hf : f b with
    | true => simp [List.findIdx_cons, hf]
    | false =>
      simp only [Bool.false_eq_true, if_false, ih, List.findIdx_cons, hf, cond_false]
      congr 1
      omega

/-! The comparison (R610). -/

/-- What a comparison of two extended strings has found, from index `i` on among `fuel` many: where it stopped, and the
characters that differ there, if any. -/
def Compared (x y : Nat → Byte) (fuel i j : Nat) (r : Option (Byte × Byte)) : Prop :=
  (∀ k, i ≤ k → k < j → x k = y k)
    ∧ ((r = none ∧ j = i + fuel) ∨ (r = some (x j, y j) ∧ i ≤ j ∧ j < i + fuel ∧ x j ≠ y j))

theorem compareFrom_run {s : State} {a b : Desc} {fill : Byte} {x y : Nat → Byte}
    (hx : ∀ i, a.chrOr fill i s = .ok (x i) s) (hy : ∀ i, b.chrOr fill i s = .ok (y i) s) (fuel i : Nat) :
    ∃ j r, compareFrom a b fill fuel i s = .ok (j, r) s ∧ Compared x y fuel i j r := by
  induction fuel generalizing i with
  | zero => exact ⟨i, none, rfl, fun k hk hk' => by omega, .inl ⟨rfl, rfl⟩⟩
  | succ fuel ih =>
    have hstep : compareFrom a b fill (fuel + 1) i s
        = (if x i = y i then compareFrom a b fill fuel (i + 1) else pure (i, some (x i, y i))) s :=
      (bind_of_ok (hx i)).trans (bind_of_ok (hy i))
    by_cases heq : x i = y i
    · rw [if_pos heq] at hstep
      obtain ⟨j, r, hrun, hsame, hend⟩ := ih (i + 1)
      refine ⟨j, r, hstep.trans hrun, fun k hk hk' => ?_, ?_⟩
      · rcases Nat.eq_or_lt_of_le hk with rfl | hlt
        · exact heq
        · exact hsame k hlt hk'
      · rcases hend with ⟨hr, hj⟩ | ⟨hr, hij, hj, hne⟩
        · exact .inl ⟨hr, by omega⟩
        · exact .inr ⟨hr, by omega, by omega, hne⟩
    · rw [if_neg heq] at hstep
      exact ⟨i, _, hstep, fun k hk hk' => by omega, .inr ⟨rfl, le_rfl, by omega, heq⟩⟩

/-! The match (R611). -/

section Matches

variable {s : State} {a b : Desc} {as bs : List Byte}
  (ha : ∀ i (h : i < as.length), a.chr i s = .ok as[i] s) (hb : ∀ i (h : i < bs.length), b.chr i s = .ok bs[i] s)

include ha hb

theorem matchesAt_run {i : Nat} (hi : i + bs.length ≤ as.length) (fuel j : Nat) (hj : j + fuel = bs.length) :
    matchesAt a b i fuel j s = .ok (decide ((as.drop (i + j)).take fuel = bs.drop j)) s := by
  induction fuel generalizing j with
  | zero => simp [matchesAt, List.drop_eq_nil_of_le (show bs.length ≤ j by omega)]
  | succ fuel ih =>
    have hja : i + j < as.length := by omega
    have hjb : j < bs.length := by omega
    have hstep : matchesAt a b i (fuel + 1) j s
        = (if as[i + j] = bs[j] then matchesAt a b i fuel (j + 1) else pure false) s :=
      (bind_of_ok (ha _ hja)).trans (bind_of_ok (hb _ hjb))
    rw [hstep, List.drop_eq_getElem_cons hja, List.drop_eq_getElem_cons hjb, List.take_succ_cons]
    simp only [List.cons.injEq]
    by_cases heq : as[i + j] = bs[j]
    · simp only [heq, if_true, ih (j + 1) (by omega), true_and, Nat.add_assoc]
    · simp only [heq, if_false, false_and, decide_false, run_pure]

/-- What a search for the object has found, from index `i` on among `fuel` many. -/
theorem matchFrom_run (fuel i : Nat) (hfuel : ∀ k < i + fuel, k + bs.length ≤ as.length) (hlen : b.fst.toNat = bs.length) :
    ∃ r, matchFrom a b fuel i s = .ok r s
      ∧ ((r = none ∧ ∀ j, i ≤ j → j < i + fuel → (as.drop j).take bs.length ≠ bs)
        ∨ ∃ k, r = some k ∧ i ≤ k ∧ k < i + fuel ∧ (as.drop k).take bs.length = bs
          ∧ ∀ j, i ≤ j → j < k → (as.drop j).take bs.length ≠ bs) := by
  induction fuel generalizing i with
  | zero => exact ⟨none, rfl, .inl ⟨rfl, fun j hj hj' => by omega⟩⟩
  | succ fuel ih =>
    have htrial := matchesAt_run ha hb (hfuel i (by omega)) bs.length 0 (Nat.zero_add _)
    rw [Nat.add_zero, List.drop_zero, ← hlen] at htrial
    have hstep : matchFrom a b (fuel + 1) i s
        = (if decide ((as.drop i).take b.fst.toNat = bs) then pure (some i) else matchFrom a b fuel (i + 1)) s :=
      bind_of_ok htrial
    rw [hlen] at hstep
    by_cases hat : (as.drop i).take bs.length = bs
    · rw [decide_eq_true hat, if_pos rfl] at hstep
      exact ⟨some i, hstep, .inr ⟨i, rfl, le_rfl, by omega, hat, fun j hj hj' => by omega⟩⟩
    · rw [decide_eq_false hat, if_neg Bool.false_ne_true] at hstep
      have hhere : ∀ j, i ≤ j → ¬ i + 1 ≤ j → (as.drop j).take bs.length ≠ bs := fun j hj hj' => by
        obtain rfl : j = i := by omega
        exact hat
      obtain ⟨r, hrun, hend⟩ := ih (i + 1) (fun k hk => hfuel k (by omega))
      refine ⟨r, hstep.trans hrun, ?_⟩
      rcases hend with ⟨hr, hnone⟩ | ⟨k, hr, hik, hk, hfound, hbefore⟩
      · exact .inl ⟨hr, fun j hj hj' =>
          if h : i + 1 ≤ j then hnone j h (by omega) else hhere j hj h⟩
      · exact .inr ⟨k, hr, by omega, by omega, hfound, fun j hj hj' =>
          if h : i + 1 ≤ j then hbefore j h hj' else hhere j hj h⟩

end Matches

/-- Settles O51: each scan by induction on the places it looks at. -/
theorem searchesFindFirst : Obligations.SearchesFindFirst := by
  intro s a b as bs holds
  refine ⟨fun mask m c table t h => inSet_run h, fun hleft table => tableReadable_iff hleft table, ?_⟩
  rintro ⟨hlenA, hA⟩ ⟨hlenB, hB⟩
  have hchr : ∀ {d : Desc} {ds : List Byte} (fill : Byte), holds d ds → ∀ i, d.chrOr fill i s = .ok (ds.getD i fill) s := by
    rintro d ds fill ⟨hlen, hds⟩ i
    rw [Desc.chrOr, ← hlen]
    by_cases hi : i < ds.length
    · rw [if_pos hi, List.getD_eq_getElem _ _ hi]
      exact hds i hi
    · rw [if_neg hi, List.getD_eq_default _ _ (by omega)]
      rfl
  refine ⟨fun stop f hstop => ?search, fun fill => ?compare, ?trials⟩
  case search =>
    rw [← hlenA, searchFrom_findIdx hstop (reads_byteAddrs hA), Nat.zero_add]
  case compare =>
    obtain ⟨j, r, hrun, hsame, hend⟩ := compareFrom_run (hchr fill ⟨hlenA, hA⟩) (hchr fill ⟨hlenB, hB⟩)
      (max a.fst.toNat b.fst.toNat) 0
    refine ⟨j, r, hrun, fun k hk => hsame k (Nat.zero_le k) hk, ?_⟩
    rcases hend with ⟨rfl, hj⟩ | ⟨rfl, -, hj, hne⟩
    · exact hj.trans (Nat.zero_add _)
    · exact ⟨by omega, rfl, rfl, hne⟩
  case trials =>
    obtain ⟨r, hrun, hend⟩ := matchFrom_run hA hB (a.fst.toNat + 1 - b.fst.toNat) 0 (fun k hk => by omega) hlenB.symm
    rw [hlenB] at hend
    refine ⟨r, hrun, ?_⟩
    rcases hend with ⟨rfl, hnone⟩ | ⟨k, rfl, -, hk, hfound, hbefore⟩
    · exact fun j hj => hnone j (Nat.zero_le j) (by omega)
    · exact ⟨by omega, hfound, fun j hj => hbefore j (Nat.zero_le j) hj⟩

end Sys2Proof.Machine

namespace Sys2Proof.Machine

/-! Strings in memory with the MMU disabled and no DMA (spec/48_cis_character.md R583, R591, R602). -/

/-- Where memory holds the byte at a virtual address that is not relocated. -/
def bytePlace (cfg : Config) (va : Word) : Nat := memoryAddr cfg (unmapped va)

/-- The state with a byte stored at such an address. -/
def State.byteStored (s : State) (va : Word) (b : Byte) : State :=
  s.stored { pa := unmapped va, page := none } .byte (onBothLanes b)

/-- The references of a string: the bus is quiet, the MMU disabled, and memory canonical. -/
structure State.Direct (s : State) : Prop where
  quiet : s.quiet = true
  disabled : s.mmu.sr0.getLsbD 0 = false
  wf : s.mem.wf = true

theorem readByte_plain {s : State} {va : Word} (hq : s.quiet = true) (hoff : s.mmu.sr0.getLsbD 0 = false)
    (h : plainMemory s (unmapped va) = true) : readByte va s = .ok (s.mem.read (bytePlace s.cfg va)) s :=
  readByteIn_plain (busGrant_quiet hq) (translate_disabled hoff s.mode va false) h

/-- Memory that answers lies at the address itself. -/
theorem bytePlace_plain {s : State} {va : Word} (h : plainMemory s (unmapped va) = true) :
    bytePlace s.cfg va = va.toNat := by
  obtain ⟨hio, -, -⟩ := plainMemory_iff.mp h
  have hlow : (unmapped va).toNat = va.toNat := by
    simp only [isIoPage, decide_eq_false_iff_not] at hio
    have := unmapped_toNat va
    split at this <;> omega
  have hva := va.isLt
  simp only [bytePlace, memoryAddr]
  cases s.cfg.busWidth <;> dsimp only <;> omega

section Byte

variable {s : State} {va : Word} {b : Byte} (hd : s.Direct) (h : plainMemory s (unmapped va) = true)

include hd

theorem direct_byteStored : (s.byteStored va b).Direct :=
  ⟨hd.quiet, hd.disabled, Memory.wf_writeLane _ _ _ hd.wf⟩

theorem read_byteStored_same : (s.byteStored va b).mem.read (bytePlace s.cfg va) = b := by
  refine (Memory.read_writeLane_byte_same hd.wf s.cfg (unmapped va) (onBothLanes b)).trans ?_
  split
  · exact highByte_wordOf b b
  · exact lowByte_wordOf b b

omit hd in
theorem read_byteStored_other {x : Nat} (hx : x ≠ bytePlace s.cfg va) : (s.byteStored va b).mem.read x = s.mem.read x :=
  read_writeLane_byte s.mem s.cfg (unmapped va) (onBothLanes b) hx

include h

theorem writeByte_plain : writeByte va b s = .ok false (s.byteStored va b) :=
  writeByteIn_plain (busGrant_quiet hd.quiet) (translate_disabled hd.disabled s.mode va true) h b

end Byte

/-- The bytes of a string at `a`, of which there are `n`, are in memory that answers. -/
def State.plainString (s : State) (a : Word) (n : Nat) : Prop :=
  ∀ i < n, plainMemory s (unmapped (a + BitVec.ofNat 16 i)) = true

theorem add_ofNat_succ (a : Word) (i : Nat) : a + 1 + BitVec.ofNat 16 i = a + BitVec.ofNat 16 (i + 1) := by
  rw [BitVec.add_assoc]
  congr 1
  bv_omega

theorem plainString_tail {s : State} {a : Word} {n : Nat} (h : s.plainString a (n + 1)) : s.plainString (a + 1) n := by
  intro i hi
  rw [add_ofNat_succ]
  exact h (i + 1) (by omega)

theorem plainString_head {s : State} {a : Word} {n : Nat} (h : s.plainString a (n + 1)) :
    plainMemory s (unmapped a) = true := by
  have h0 := h 0 (Nat.zero_lt_succ n)
  rwa [BitVec.add_zero] at h0

/-- Two bytes of a string of less than 2^16 bytes after the first lie elsewhere. -/
theorem bytePlace_ne {s : State} {a : Word} {n i : Nat} (h : s.plainString a (n + 1)) (hi : i < n) (hn : n < 65536) :
    bytePlace s.cfg (a + 1 + BitVec.ofNat 16 i) ≠ bytePlace s.cfg a := by
  rw [bytePlace_plain (plainString_tail h i hi), bytePlace_plain (plainString_head h)]
  bv_omega

/-- The state `t` is `s` with these bytes of a string stored, and nothing else changed. -/
structure StringStored (s : State) (a : Word) (bytes : List Byte) (t : State) : Prop where
  frame : t = { s with mem := t.mem }
  read_same : ∀ i (h : i < bytes.length), t.mem.read (bytePlace s.cfg (a + BitVec.ofNat 16 i)) = bytes[i]
  read_other : ∀ x, (∀ i < bytes.length, x ≠ bytePlace s.cfg (a + BitVec.ofNat 16 i)) → t.mem.read x = s.mem.read x

theorem storeBytes_run {s : State} {a : Word} {bytes : List Byte} (hd : s.Direct) (h : s.plainString a bytes.length)
    (hlen : bytes.length ≤ 65536) : ∃ t, storeBytes a bytes s = .ok false t ∧ StringStored s a bytes t := by
  induction bytes generalizing s a with
  | nil => exact ⟨s, rfl, rfl, fun i hi => absurd hi (Nat.not_lt_zero i), fun x _ => rfl⟩
  | cons b rest ih =>
    have hlen' : rest.length < 65536 := hlen
    obtain ⟨t, hrun, hframe, hsame, hother⟩ := ih (direct_byteStored (va := a) (b := b) hd) (plainString_tail h) hlen'.le
    have hstep : storeBytes a (b :: rest) s = .ok false t :=
      (bind_of_ok (writeByte_plain hd (plainString_head h))).trans (bind_of_ok hrun)
    refine ⟨t, hstep, hframe, fun i hi => ?same, fun x hx => ?other⟩
    case same =>
      cases i with
      | zero =>
        rw [BitVec.add_zero, hother _ fun i hi => (bytePlace_ne h hi hlen').symm]
        exact read_byteStored_same hd
      | succ i =>
        rw [← add_ofNat_succ]
        exact hsame i (Nat.lt_of_succ_lt_succ hi)
    case other =>
      have hfirst : x ≠ bytePlace s.cfg a := by
        have h0 := hx 0 (Nat.zero_lt_succ _)
        rwa [BitVec.add_zero] at h0
      refine (hother x fun i hi => ?_).trans (read_byteStored_other hfirst)
      have hnext := hx (i + 1) (Nat.succ_lt_succ hi)
      rwa [← add_ofNat_succ] at hnext

/-- The table's byte for a character. -/
def State.tableByte (s : State) (table : Word) (c : Byte) : Byte :=
  s.mem.read (bytePlace s.cfg (table + BitVec.ofNat 16 c.toNat))

/-- A translated string is the string of its translations, the table lying outside what is stored (R602). -/
theorem storeTranslated_run {s : State} {table a : Word} {chars : List Byte} {f : Byte → Byte} (hd : s.Direct)
    (h : s.plainString a chars.length) (htable : s.plainString table 256)
    (hf : ∀ c : Byte, s.tableByte table c = f c)
    (hout : ∀ i < chars.length, ∀ c < 256,
      bytePlace s.cfg (table + BitVec.ofNat 16 c) ≠ bytePlace s.cfg (a + BitVec.ofNat 16 i)) :
    storeTranslated table a chars s = storeBytes a (chars.map f) s := by
  induction chars generalizing s a with
  | nil => rfl
  | cons c rest ih =>
    have hread : readByte (table + c.setWidth 16) s = .ok (f c) s := by
      rw [← hf c, show c.setWidth 16 = BitVec.ofNat 16 c.toNat from BitVec.eq_of_toNat_eq (by simp)]
      exact readByte_plain hd.quiet hd.disabled (htable c.toNat c.isLt)
    have hwrite := writeByte_plain (b := f c) hd (plainString_head h)
    have hrest := ih (s := s.byteStored a (f c)) (a := a + 1) (direct_byteStored hd) (plainString_tail h) htable
      (fun d => ?_) fun i hi d hd' => ?_
    · refine (bind_of_ok hread).trans ((bind_of_ok hwrite).trans (Eq.trans ?_ (bind_of_ok hwrite).symm))
      rw [run_bind, run_bind, hrest]
    · have hne := hout 0 (Nat.zero_lt_succ _) d.toNat d.isLt
      rw [BitVec.add_zero] at hne
      exact (read_byteStored_other hne).trans (hf d)
    · have hne := hout (i + 1) (Nat.succ_lt_succ hi) d hd'
      rwa [← add_ofNat_succ] at hne

/-- Settles O52: each string byte by byte. -/
theorem stringStore : Obligations.StringStore := by
  intro s a bytes hq hoff hlen placeAt plain place hplain
  refine ⟨fun hbytes => readBytes_run (reads_byteAddrs fun i hi => ?_), fun hwf => ?_⟩
  · rw [hbytes i hi]
    exact readByte_plain hq hoff (hplain i hi)
  · have hd : s.Direct := ⟨hq, hoff, hwf⟩
    obtain ⟨t, hrun, hframe, hsame, hother⟩ := storeBytes_run hd hplain hlen
    refine ⟨⟨t, hrun, hframe, hsame, hother⟩, fun table htable hout => ?_⟩
    have hmap : (bytes.map (s.tableByte table)).length = bytes.length := List.length_map _
    obtain ⟨t, hrun, hframe, hsame, hother⟩ := storeBytes_run hd (hmap ▸ hplain) (hmap ▸ hlen)
    refine ⟨t, (storeTranslated_run hd hplain htable (fun c => rfl) hout).trans hrun, hframe, fun i hi => ?_, fun x hx => ?_⟩
    · exact (hsame i (hmap ▸ hi)).trans (List.getElem_map _)
    · exact hother x (hmap ▸ hx)

end Sys2Proof.Machine

namespace Sys2Proof.Machine

/-! The decimal instructions, part by part (spec/49_cis_decimal.md R641 to R675). -/

/-! What they share: the two classes, the registers they clear, the string they store. -/

/-- One of four things by the class and the form of an instruction. -/
def DecClass.pick {α : Type} (cls : DecClass) (form : CisForm) (numeric numericI packed packedI : α) : α :=
  match cls, form with
  | .numeric, .register => numeric
  | .numeric, .inLine => numericI
  | .packed, .register => packed
  | .packed, .inLine => packedI

theorem DecClass.pick_numeric {α : Type} (form : CisForm) (numeric numericI packed packedI : α) :
    DecClass.numeric.pick form numeric numericI packed packedI = form.pick numeric numericI := by
  cases form <;> rfl

theorem DecClass.pick_packed {α : Type} (form : CisForm) (numeric numericI packed packedI : α) :
    DecClass.packed.pick form numeric numericI packed packedI = form.pick packed packedI := by
  cases form <;> rfl

/-- The other class. -/
def DecClass.other : DecClass → DecClass
  | .numeric => .packed
  | .packed => .numeric

theorem clearRegs_run (rs : List Reg) (s : State) :
    clearRegs rs s = .ok ⟨⟩ (withWords s (rs.map fun r => (r, 0))) := by
  induction rs generalizing s with
  | nil => rfl
  | cons r rest ih => exact ih (s.withReg r 0)

/-- What the end of a decimal instruction leaves in the registers: in the register form the listed ones cleared (R648). -/
def CisForm.cleared (form : CisForm) (rs : List Reg) (t : State) : State :=
  form.pick (withWords t (rs.map fun r => (r, 0))) t

theorem decDone_run (form : CisForm) (rs : List Reg) (p : Bool) (k : Codes) (s : State) :
    decDone form rs p k s = .ok ⟨⟩ (cisEnd p k (form.cleared rs s)) :=
  (bind_of_ok (inRegisters_run (clearRegs_run rs s))).trans (cisDone_run p k _)

theorem withDec_some {op : Word} {cls : DecClass} {d : Desc} {x : Dec} (h : ddesc d.fst d.snd cls = some x)
    (k : Dec → M Unit) : withDec op cls d k = k x := by
  rw [withDec, h]

theorem withDec_none {op : Word} {cls : DecClass} {d : Desc} (h : ddesc d.fst d.snd cls = none) (k : Dec → M Unit) :
    withDec op cls d k = effectUnpredictable op := by
  rw [withDec, h]

/-- A descriptor read as the operand of an instruction that needs another one too (R641). -/
theorem withDec_none_or {op : Word} {cls : DecClass} {d : Desc} {k : Dec → M Unit}
    (h : ddesc d.fst d.snd cls = none ∨ ∀ x, k x = effectUnpredictable op) :
    withDec op cls d k = effectUnpredictable op := by
  cases hd : ddesc d.fst d.snd cls with
  | none => exact withDec_none hd k
  | some x => exact (withDec_some hd k).trans (h.resolve_left (by rw [hd]; exact nofun) x)

/-- The value an outcome stores, if it is one. -/
def DecOutcome.stored : DecOutcome → Option Int
  | .value v => some v
  | .divideByZero => none
  | .unpredictable => none

section Deliver

variable {d : Dec} {o : DecOutcome} {v : Int} {s s1 t u : State} {p : Bool} {free : List Byte} {e : Stop}

theorem deliver_value (h : storeBytes d.adr (decResult d.type d.len v).1 s = .ok p t) :
    d.deliver (.value v) s = .ok (p, (decResult d.type d.len v).2) t :=
  bind_of_ok h

theorem deliver_free (ho : o.stored = none) (ha : anyBytes (d.type.size d.len) s = .ok free s1)
    (h : storeBytes d.adr free s1 = .ok p t) :
    ∃ k, d.deliver o s = .ok (p, k) { t with free := t.free + 1 } := by
  obtain ⟨k, hk⟩ := anyCodes_run t
  cases o with
  | value v => cases ho
  | divideByZero =>
    exact ⟨{ k with v := true, c := true }, (bind_of_ok ha).trans ((bind_of_ok h).trans (bind_of_ok hk))⟩
  | unpredictable => exact ⟨k, (bind_of_ok ha).trans ((bind_of_ok h).trans (bind_of_ok hk))⟩

/-- A zero divisor sets V and C (R663). -/
theorem deliver_divideByZero (ha : anyBytes (d.type.size d.len) s = .ok free s1)
    (h : storeBytes d.adr free s1 = .ok p t) :
    ∃ n z, d.deliver .divideByZero s = .ok (p, { n := n, z := z, v := true, c := true }) { t with free := t.free + 1 } := by
  obtain ⟨k, hk⟩ := anyCodes_run t
  exact ⟨k.n, k.z, (bind_of_ok ha).trans ((bind_of_ok h).trans (bind_of_ok hk))⟩

theorem deliver_value_fails (ho : o.stored = some v)
    (h : storeBytes d.adr (decResult d.type d.len v).1 s = .error e u) : d.deliver o s = .error e u := by
  cases o with
  | value v' =>
    obtain rfl : v' = v := Option.some.inj ho
    exact bind_of_error h
  | divideByZero => cases ho
  | unpredictable => cases ho

theorem deliver_free_fails (ho : o.stored = none) (ha : anyBytes (d.type.size d.len) s = .ok free s1)
    (h : storeBytes d.adr free s1 = .error e u) : d.deliver o s = .error e u := by
  cases o with
  | value v => cases ho
  | divideByZero => exact (bind_of_ok ha).trans (bind_of_error h)
  | unpredictable => exact (bind_of_ok ha).trans (bind_of_error h)

end Deliver

/-- The end of an instruction that stores a string: the string, then the codes and the registers. -/
def Dec.store (d : Dec) (form : CisForm) (rs : List Reg) (o : DecOutcome) : M Unit := do
  let (p, k) ← d.deliver o
  decDone form rs p k

theorem store_run {d : Dec} {form : CisForm} {o : DecOutcome} {s t : State} {p : Bool} {k : Codes}
    (h : d.deliver o s = .ok (p, k) t) (rs : List Reg) :
    d.store form rs o s = .ok ⟨⟩ (cisEnd p k (form.cleared rs t)) :=
  (bind_of_ok h).trans (decDone_run form rs p k t)

theorem store_fails {d : Dec} {form : CisForm} {o : DecOutcome} {s u : State} {e : Stop} (h : d.deliver o s = .error e u)
    (rs : List Reg) : d.store form rs o s = .error e u :=
  bind_of_error h

/-! What each computes. -/

/-- The outcome of ADD, SUB, MUL and DIV: that of `f`, unless the strings clash or a source is not valid. -/
def arithOutcome (f : Int → Int → DecOutcome) (clash : Bool) (v1 v2 : Option Int) : DecOutcome :=
  match clash, v1, v2 with
  | false, some x, some y => f x y
  | _, _, _ => .unpredictable

theorem arithOutcome_unpredictable (f : Int → Int → DecOutcome) {clash : Bool} {v1 v2 : Option Int}
    (h : v1 = none ∨ v2 = none ∨ clash = true) : arithOutcome f clash v1 v2 = .unpredictable := by
  rcases h with rfl | rfl | rfl
  · cases clash <;> rfl
  · cases clash <;> cases v1 <;> rfl
  · rfl

/-- The outcome of a shift (R666). -/
def shiftOutcome (w : Word) (clash : Bool) : Option Int → DecOutcome
  | some v =>
    if (w.extractLsb' 8 4).toNat ≤ 9 ∧ clash = false then
      .value (signedValue (decide (v < 0)) (decShift v.natAbs (w.extractLsb' 0 8).toInt (w.extractLsb' 8 4).toNat))
    else .unpredictable
  | none => .unpredictable

/-- The outcome of a conversion between the classes (R674, R675). -/
def convertOutcome (clash : Bool) (v : Option Int) : DecOutcome :=
  match clash, v with
  | false, some v => .value v
  | _, _ => .unpredictable

section Instructions

variable {s s1 s2 s3 : State} {form : CisForm} {cls toCls : DecClass} {a b c : Desc} {x y d : Dec} {v w : Option Int}
  (hcis : s.cfg.cisPresent = true) (hps : s.ps.getLsbD 8 = false)

include hcis hps

/-! Arithmetic. -/

section Arithmetic

variable (rule : OverlapRule) (f : Int → Int → DecOutcome) (hops : threeDescs form s = .ok (a, b, c) s1)

include hops

theorem decArith_unpredictable
    (h : ddesc a.fst a.snd cls = none ∨ ddesc b.fst b.snd cls = none ∨ ddesc c.fst c.snd cls = none) :
    decArith form cls rule f s = effectUnpredictable (s.regs.pc - 2) s1 :=
  (cisInstr_run hcis hps _).trans ((bind_of_ok hops).trans (congrFun (withDec_none_or
    (h.imp_right fun h _ => withDec_none_or (h.imp_right fun h _ => withDec_none_or (.inl h)))) s1))

variable (ha : ddesc a.fst a.snd cls = some x) (hb : ddesc b.fst b.snd cls = some y) (hc : ddesc c.fst c.snd cls = some d)

include ha hb hc

theorem decArith_of_decs : decArith form cls rule f s = (do
    let v1 ← x.read
    let v2 ← y.read
    let s ← get
    d.store form [.r0, .r1, .r2, .r3]
      (arithOutcome f (s.forbiddenOverlap rule x d || s.forbiddenOverlap rule y d) v1 v2)) s1 :=
  (cisInstr_run hcis hps _).trans ((bind_of_ok hops).trans
    (congrFun ((withDec_some ha _).trans ((withDec_some hb _).trans (withDec_some hc _))) s1))

theorem decArith_run (hx : x.read s1 = .ok v s2) (hy : y.read s2 = .ok w s3) :
    decArith form cls rule f s = d.store form [.r0, .r1, .r2, .r3]
      (arithOutcome f (s3.forbiddenOverlap rule x d || s3.forbiddenOverlap rule y d) v w) s3 :=
  (decArith_of_decs hcis hps rule f hops ha hb hc).trans ((bind_of_ok hx).trans (bind_of_ok hy))

end Arithmetic

/-! Compare. -/

section Compare

variable (hops : descPair form s = .ok (a, b) s1)

include hops

theorem decCompare_unpredictable (h : ddesc a.fst a.snd cls = none ∨ ddesc b.fst b.snd cls = none) :
    decCompare form cls s = effectUnpredictable (s.regs.pc - 2) s1 :=
  (cisInstr_run hcis hps _).trans ((bind_of_ok hops).trans (congrFun (withDec_none_or
    (h.imp_right fun h _ => withDec_none_or (.inl h))) s1))

theorem decConvert_unpredictable (h : ddesc a.fst a.snd cls = none ∨ ddesc b.fst b.snd toCls = none) :
    decConvert form cls toCls s = effectUnpredictable (s.regs.pc - 2) s1 :=
  (cisInstr_run hcis hps _).trans ((bind_of_ok hops).trans (congrFun (withDec_none_or
    (h.imp_right fun h _ => withDec_none_or (.inl h))) s1))

variable (ha : ddesc a.fst a.snd cls = some x)

include ha

theorem decCompare_of_decs (hb : ddesc b.fst b.snd cls = some y) : decCompare form cls s = (do
    match (← x.read), (← y.read) with
    | some v1, some v2 =>
      decDone form [.r0, .r1, .r2, .r3] false { n := decide (v1 < v2), z := v1 == v2, v := false, c := false }
    | _, _ => decDone form [.r0, .r1, .r2, .r3] false (← anyCodes)) s1 :=
  (cisInstr_run hcis hps _).trans ((bind_of_ok hops).trans
    (congrFun ((withDec_some ha _).trans (withDec_some hb _)) s1))

theorem decConvert_of_decs (hb : ddesc b.fst b.snd toCls = some y) : decConvert form cls toCls s = (do
    let v ← x.read
    let s ← get
    y.store form [.r0, .r1] (convertOutcome (s.forbiddenOverlap .never x y) v)) s1 :=
  (cisInstr_run hcis hps _).trans ((bind_of_ok hops).trans
    (congrFun ((withDec_some ha _).trans (withDec_some hb _)) s1))

end Compare

/-! Shift. -/

section Shift

variable {sd : Word} (hops : shiftOps form s = .ok (a, b, sd) s1)

include hops

theorem decShiftInstr_unpredictable
    (h : sd &&& 0o170000 ≠ 0 ∨ ddesc a.fst a.snd cls = none ∨ ddesc b.fst b.snd cls = none) :
    decShiftInstr form cls s = effectUnpredictable (s.regs.pc - 2) s1 := by
  refine (cisInstr_run hcis hps _).trans ((bind_of_ok hops).trans ?_)
  dsimp only
  by_cases hsd : sd &&& 0o170000 = 0
  · rw [if_pos hsd, withDec_none_or
      ((h.resolve_left (not_not_intro hsd)).imp_right fun h _ => withDec_none_or (.inl h))]
  · rw [if_neg hsd]

theorem decShiftInstr_of_decs (hsd : sd &&& 0o170000 = 0) (ha : ddesc a.fst a.snd cls = some x)
    (hb : ddesc b.fst b.snd cls = some y) : decShiftInstr form cls s = (do
    let v ← x.read
    let s ← get
    y.store form [.r0, .r1, .r4] (shiftOutcome sd (s.forbiddenOverlap .never x y) v)) s1 := by
  refine (cisInstr_run hcis hps _).trans ((bind_of_ok hops).trans ?_)
  dsimp only
  rw [if_pos hsd]
  exact congrFun ((withDec_some ha _).trans (withDec_some hb _)) s1

end Shift

/-! Long integers. -/

theorem decToLong_unpredictable {q : Word} (hops : toLongOps form s = .ok (a, q) s1) (h : ddesc a.fst a.snd cls = none) :
    decToLong form cls s = effectUnpredictable (s.regs.pc - 2) s1 :=
  (cisInstr_run hcis hps _).trans ((bind_of_ok hops).trans (congrFun (withDec_none h _) s1))

theorem decToLong_of_dec {q : Word} (hops : toLongOps form s = .ok (a, q) s1) (ha : ddesc a.fst a.snd cls = some x) :
    decToLong form cls s = (do
    match (← x.read) with
    | some v => decDone form [.r0, .r1] (← putLong form q (longResult v).1) (longResult v).2
    | none =>
      let hi := Config.freeWord (← nextFree)
      let lo := Config.freeWord (← nextFree)
      let p ← putLong form q { hi := hi, lo := lo }
      decDone form [.r0, .r1] p (← anyCodes)) s1 :=
  (cisInstr_run hcis hps _).trans ((bind_of_ok hops).trans
    (congrFun (withDec_some ha _) s1))

theorem decFromLong_unpredictable {l : Long} (hops : fromLongOps form s = .ok (a, l) s1)
    (h : ddesc a.fst a.snd cls = none) : decFromLong form cls s = effectUnpredictable (s.regs.pc - 2) s1 :=
  (cisInstr_run hcis hps _).trans ((bind_of_ok hops).trans (congrFun (withDec_none h _) s1))

theorem decFromLong_of_dec {l : Long} (hops : fromLongOps form s = .ok (a, l) s1) (ha : ddesc a.fst a.snd cls = some x) :
    decFromLong form cls s = x.store form [.r2, .r3] (.value l.bits.toInt) s1 :=
  (cisInstr_run hcis hps _).trans ((bind_of_ok hops).trans
    (congrFun (withDec_some ha _) s1))

end Instructions

end Sys2Proof.Machine

namespace Sys2Proof.Machine

/-! Decimal arithmetic (spec/49_cis_decimal.md R648 to R663). -/

/-! Overlap (R650). -/

theorem placeOf_of_translate {s : State} {va : Word} {m : Mapped} (h : translate s.mode va false s = .ok m s) :
    s.placeOf va = some (if isIoPage m.pa then m.pa.toNat else memoryAddr s.cfg m.pa) := by
  have hphysical : s.physicalOf va = some m.pa := by
    obtain ⟨-, ⟨hoff, rfl⟩ | ⟨hon, p, hp, -, rfl⟩⟩ := translate_ok h
    · rw [State.physicalOf, hoff]
      rfl
    · rw [State.physicalOf, if_pos hon, hp]
      rfl
  rw [State.placeOf, hphysical]
  rfl

/-- Two strings overlap when two of their bytes lie in one place. -/
theorem overlaps_iff (s : State) (as bs : List Word) : s.overlaps as bs = true ↔
    ∃ a ∈ as, ∃ b ∈ bs, ∃ p, s.placeOf a = some p ∧ s.placeOf b = some p := by
  simp only [State.overlaps, List.any_eq_true, List.contains_iff_mem, List.mem_filterMap]
  constructor
  · rintro ⟨p, ⟨a, ha, hpa⟩, b, hb, hpb⟩
    exact ⟨a, ha, b, hb, p, hpa, hpb⟩
  · rintro ⟨a, ha, b, hb, p, hpa, hpb⟩
    exact ⟨p, ⟨a, ha, hpa⟩, b, hb, hpb⟩

theorem coincide_eq_false_iff (s : State) (x y : Dec) : s.coincide x y = false ↔
    ∃ j < min x.len y.len, s.placeOf (x.digitAddr j) ≠ s.placeOf (y.digitAddr j) := by
  simp only [State.coincide, List.all_eq_false, List.mem_range, beq_iff_eq, ne_eq]

theorem forbiddenOverlap_iff (s : State) (rule : OverlapRule) (x y : Dec) :
    s.forbiddenOverlap rule x y = true ↔ s.overlaps x.addrs y.addrs = true
      ∧ (rule = .coincident → ∃ j < min x.len y.len, s.placeOf (x.digitAddr j) ≠ s.placeOf (y.digitAddr j)) := by
  cases rule with
  | coincident =>
    simp only [State.forbiddenOverlap, Bool.and_eq_true, Bool.not_eq_true', coincide_eq_false_iff, true_imp_iff]
  | never => simp only [State.forbiddenOverlap, Bool.and_eq_true, reduceCtorEq, false_imp_iff]

/-! The instructions. -/

section Exec

variable (cls : DecClass) (form : CisForm) (s : State)

theorem exec_decAdd : exec (cls.pick form .addn .addni .addp .addpi) s
    = runInstr (decArith form cls .coincident decAdd) s := by
  cases cls <;> cases form <;> rfl

theorem exec_decSub : exec (cls.pick form .subn .subni .subp .subpi) s
    = runInstr (decArith form cls .coincident decSub) s := by
  cases cls <;> cases form <;> rfl

theorem exec_decMul : exec (form.pick .mulp .mulpi) s = runInstr (decArith form .packed .never decMul) s := by
  cases form <;> rfl

theorem exec_decDiv : exec (form.pick .divp .divpi) s = runInstr (decArith form .packed .never decDiv) s := by
  cases form <;> rfl

end Exec

/-- The sums and differences of a class. -/
def decSums (cls : DecClass) (form : CisForm) : List Instr :=
  match cls, form with
  | .numeric, .register => [.addn, .subn]
  | .numeric, .inLine => [.addni, .subni]
  | .packed, .register => [.addp, .subp]
  | .packed, .inLine => [.addpi, .subpi]

/-- The products and quotients of a class; numeric strings have none. -/
def decProducts (cls : DecClass) (form : CisForm) : List Instr :=
  match cls, form with
  | .numeric, _ => []
  | .packed, .register => [.mulp, .divp]
  | .packed, .inLine => [.mulpi, .divpi]

theorem exec_of_mem_decSums {cls : DecClass} {form : CisForm} {i : Instr} (h : i ∈ decSums cls form) :
    ∃ f, ∀ s, exec i s = runInstr (decArith form cls .coincident f) s := by
  have hmem : i ∈ [cls.pick form .addn .addni .addp .addpi, cls.pick form .subn .subni .subp .subpi] := by
    cases cls <;> cases form <;> exact h
  rcases List.mem_pair.mp hmem with rfl | rfl
  · exact ⟨decAdd, exec_decAdd cls form⟩
  · exact ⟨decSub, exec_decSub cls form⟩

theorem exec_of_mem_decProducts {cls : DecClass} {form : CisForm} {i : Instr} (h : i ∈ decProducts cls form) :
    ∃ f, ∀ s, exec i s = runInstr (decArith form cls .never f) s := by
  cases cls with
  | numeric => cases h
  | packed =>
    have hmem : i ∈ [form.pick .mulp .mulpi, form.pick .divp .divpi] := by
      cases form <;> exact h
    rcases List.mem_pair.mp hmem with rfl | rfl
    · exact ⟨decMul, exec_decMul form⟩
    · exact ⟨decDiv, exec_decDiv form⟩

section Arithmetic

variable {s s1 s2 s3 s4 t : State} {form : CisForm} {cls : DecClass} {rule : OverlapRule} {f : Int → Int → DecOutcome}
  {a b c : Desc} {x y d : Dec} {v w : Option Int} {v1 v2 : Int} {p : Bool} {free : List Byte}
  (hcis : s.cfg.cisPresent = true) (hps : s.ps.getLsbD 8 = false) (hops : threeDescs form s = .ok (a, b, c) s1)
  (ha : ddesc a.fst a.snd cls = some x) (hb : ddesc b.fst b.snd cls = some y) (hc : ddesc c.fst c.snd cls = some d)

include hcis hps hops ha hb hc

/-- A source that is not valid, and a forbidden overlap, leave free bytes and codes (R650, R581 (a)). -/
theorem decArith_free (hx : x.read s1 = .ok v s2) (hy : y.read s2 = .ok w s3)
    (h : v = none ∨ w = none ∨ s3.forbiddenOverlap rule x d = true ∨ s3.forbiddenOverlap rule y d = true)
    (hany : anyBytes (d.type.size d.len) s3 = .ok free s4) (hstore : storeBytes d.adr free s4 = .ok p t) :
    ∃ k, runInstr (decArith form cls rule f) s
      = completed (cisEnd p k (form.cleared [.r0, .r1, .r2, .r3] { t with free := t.free + 1 })) := by
  rw [← Bool.or_eq_true] at h
  have hrun := decArith_run hcis hps rule f hops ha hb hc hx hy
  rw [arithOutcome_unpredictable f h] at hrun
  obtain ⟨k, hk⟩ := deliver_free (o := .unpredictable) rfl hany hstore
  exact ⟨k, runInstr_ok (hrun.trans (store_run hk _))⟩

variable (hclash : s3.forbiddenOverlap rule x d = false ∧ s3.forbiddenOverlap rule y d = false)
  (hx : x.read s1 = .ok (some v1) s2) (hy : y.read s2 = .ok (some v2) s3)

include hclash hx hy

/-- With valid sources and no forbidden overlap the outcome is that of the operation. -/
theorem decArith_valid : decArith form cls rule f s = d.store form [.r0, .r1, .r2, .r3] (f v1 v2) s3 := by
  rw [decArith_run hcis hps rule f hops ha hb hc hx hy, hclash.1, hclash.2]
  rfl

/-- The value is stored and sets the codes (R649). -/
theorem decArith_value {n : Int} (hf : f v1 v2 = .value n)
    (hstore : storeBytes d.adr (decResult d.type d.len n).1 s3 = .ok p t) :
    runInstr (decArith form cls rule f) s
      = completed (cisEnd p (decResult d.type d.len n).2 (form.cleared [.r0, .r1, .r2, .r3] t)) := by
  have hrun := decArith_valid (f := f) hcis hps hops ha hb hc hclash hx hy
  rw [hf] at hrun
  exact runInstr_ok (hrun.trans (store_run (deliver_value hstore) _))

/-- A divisor of 0 leaves free bytes, and sets V and C (R663). -/
theorem decArith_divideByZero (hf : f v1 v2 = .divideByZero)
    (hany : anyBytes (d.type.size d.len) s3 = .ok free s4) (hstore : storeBytes d.adr free s4 = .ok p t) :
    ∃ n z, runInstr (decArith form cls rule f) s = completed (cisEnd p { n := n, z := z, v := true, c := true }
      (form.cleared [.r0, .r1, .r2, .r3] { t with free := t.free + 1 })) := by
  have hrun := decArith_valid (f := f) hcis hps hops ha hb hc hclash hx hy
  rw [hf] at hrun
  obtain ⟨n, z, hk⟩ := deliver_divideByZero hany hstore
  exact ⟨n, z, runInstr_ok (hrun.trans (store_run hk _))⟩

end Arithmetic

/-- Settles O53: every instruction by its operation on two values; overlap by the places of bytes and digits. -/
theorem decimalArithmetic : Obligations.DecimalArithmetic := by
  refine ⟨fun s hcis hps => ?suspended, fun s va m => placeOf_of_translate, fun s rule x y => ?overlap,
    fun s s1 form a b c hcis hps hops => ?faults,
    fun s s1 s2 s3 t form a b c x y d v1 v2 p hcis hps hops => ?values⟩
  case suspended =>
    repeat refine List.forall_mem_cons.mpr ⟨runInstr_cisInstr_suspended hcis hps _, ?_⟩
    exact List.forall_mem_nil _
  case overlap =>
    exact ⟨overlaps_iff s, (forbiddenOverlap_iff s rule x y).trans (and_congr_left' (overlaps_iff s _ _))⟩
  case faults =>
    refine ⟨fun cls h => ?descriptors,
      fun cls rule x y d v1 v2 s2 s3 s4 t free p ha hb hc hx hy h hany hstore => ?free⟩
    case descriptors =>
      have hrun {rule f} := runInstr_congr (decArith_unpredictable hcis hps rule f hops h)
      refine List.forall_mem_append.mpr ⟨fun i hi => ?_, fun i hi => ?_⟩
      · obtain ⟨f, hf⟩ := exec_of_mem_decSums (cls := cls) (form := form) hi
        exact (hf s).trans hrun
      · obtain ⟨f, hf⟩ := exec_of_mem_decProducts (cls := cls) (form := form) hi
        exact (hf s).trans hrun
    case free =>
      have hrun {f} := decArith_free (f := f) hcis hps hops ha hb hc hx hy h hany hstore
      intro u i hi
      have hexec : ∃ f, ∀ s, exec i s = runInstr (decArith form cls rule f) s := by
        cases rule with
        | coincident => exact exec_of_mem_decSums hi
        | never => exact exec_of_mem_decProducts hi
      obtain ⟨f, hf⟩ := hexec
      obtain ⟨k, hk⟩ := hrun (f := f)
      exact ⟨k, (hf s).trans hk⟩
  case values =>
    intro operands ends computes hx hy
    refine ⟨fun ⟨ha, hb, hc, hclash⟩ => ?numeric, fun ⟨ha, hb, hc, hclash⟩ => ?packed,
      fun ⟨ha, hb, hc, hclash⟩ => ?products⟩
    case numeric =>
      have hadd := exec_decAdd .numeric form s
      have hsub := exec_decSub .numeric form s
      rw [DecClass.pick_numeric] at hadd hsub
      exact ⟨fun h => hadd.trans (decArith_value hcis hps hops ha hb hc hclash hx hy rfl h),
        fun h => hsub.trans (decArith_value hcis hps hops ha hb hc hclash hx hy rfl h)⟩
    case packed =>
      have hadd := exec_decAdd .packed form s
      have hsub := exec_decSub .packed form s
      rw [DecClass.pick_packed] at hadd hsub
      exact ⟨fun h => hadd.trans (decArith_value hcis hps hops ha hb hc hclash hx hy rfl h),
        fun h => hsub.trans (decArith_value hcis hps hops ha hb hc hclash hx hy rfl h)⟩
    case products =>
      refine ⟨fun h => (exec_decMul form s).trans (decArith_value hcis hps hops ha hb hc hclash hx hy rfl h),
        fun hne h => (exec_decDiv form s).trans (decArith_value hcis hps hops ha hb hc hclash hx hy (if_neg hne) h),
        fun hzero free s4 hany h => ?_⟩
      obtain ⟨n, z, hk⟩ :=
        decArith_divideByZero (f := decDiv) hcis hps hops ha hb hc hclash hx hy (if_pos hzero) hany h
      exact ⟨n, z, (exec_decDiv form s).trans hk⟩

end Sys2Proof.Machine

namespace Sys2Proof.Machine

/-! Decimal compare, shift and conversions (spec/49_cis_decimal.md R664 to R675). -/

/-! Shifts by powers of ten (R666). -/

/-- A shift to the left multiplies, one to the right divides and rounds by the digit last shifted out. -/
theorem decShift_eq (m : Nat) (count : Int) (round : Nat) : decShift m count round =
    if 0 ≤ count then m * 10 ^ count.toNat
    else m / 10 ^ (-count).toNat + (if 10 ≤ m / 10 ^ ((-count).toNat - 1) % 10 + round then 1 else 0) := by
  cases count with
  | ofNat k => rfl
  | negSucc k => rfl

theorem roundDigit_eq (sd : Word) : (sd.extractLsb' 8 4).toNat = sd.toNat / 256 % 16 := by
  simp [BitVec.extractLsb'_toNat, Nat.shiftRight_eq_div_pow]

/-- A shift word below 2^12 has no reserved bit. -/
theorem and_reserved_eq_zero {sd : Word} (h : sd.toNat < 4096) : sd &&& 0o170000 = 0 := by
  refine BitVec.eq_of_getLsbD_eq fun i hi => ?_
  have hmask : ∀ j < 12, (0o170000 : Word).getLsbD j = false := by decide
  rw [BitVec.getLsbD_and]
  by_cases hlow : i < 12
  · rw [hmask i hlow, Bool.and_false]
    exact BitVec.getLsbD_zero.symm
  · have hhigh : sd.getLsbD i = false :=
      Nat.testBit_lt_two_pow (h.trans_le (Nat.pow_le_pow_right (n := 2) (by decide) (show 12 ≤ i by omega)))
    rw [hhigh, Bool.false_and]
    exact BitVec.getLsbD_zero.symm

/-- The value a shift of `v` gives: its magnitude shifted, with its sign. -/
def shiftedValue (sd : Word) (v : Int) : Int :=
  signedValue (decide (v < 0)) (decShift v.natAbs (sd.extractLsb' 0 8).toInt (sd.extractLsb' 8 4).toNat)

theorem signedValue_eq (v : Int) (m : Nat) : signedValue (decide (v < 0)) m = if v < 0 then -(m : Int) else m := by
  by_cases h : v < 0 <;> simp [signedValue, h]

theorem shiftedValue_eq (sd : Word) (v : Int) :
    let count := (sd.extractLsb' 0 8).toInt
    let m : Nat :=
      if 0 ≤ count then v.natAbs * 10 ^ count.toNat
      else v.natAbs / 10 ^ (-count).toNat
        + (if 10 ≤ v.natAbs / 10 ^ ((-count).toNat - 1) % 10 + sd.toNat / 256 % 16 then 1 else 0)
    shiftedValue sd v = if v < 0 then -(m : Int) else m := by
  intro count m
  rw [shiftedValue, signedValue_eq, decShift_eq, roundDigit_eq]

theorem shiftOutcome_valid {sd : Word} (h : sd.toNat / 256 % 16 ≤ 9) (v : Int) :
    shiftOutcome sd false (some v) = .value (shiftedValue sd v) :=
  if_pos ⟨(roundDigit_eq sd).trans_le h, rfl⟩

theorem shiftOutcome_unpredictable {sd : Word} {clash : Bool} {v : Option Int}
    (h : v = none ∨ 9 < sd.toNat / 256 % 16 ∨ clash = true) : shiftOutcome sd clash v = .unpredictable := by
  cases v with
  | none => rfl
  | some v =>
    have h' := h.resolve_left nofun
    refine if_neg fun ⟨hround, hclash⟩ => ?_
    rw [roundDigit_eq] at hround
    rcases h' with hlarge | htrue
    · omega
    · rw [htrue] at hclash
      cases hclash

theorem convertOutcome_unpredictable {clash : Bool} {v : Option Int} (h : v = none ∨ clash = true) :
    convertOutcome clash v = .unpredictable := by
  rcases h with rfl | rfl
  · cases clash <;> rfl
  · rfl

/-! Long integers (R647, R670, R672). -/

theorem long_toInt (l : Long) : l.bits.toInt = l.hi.toInt * 65536 + l.lo.toNat := by
  rw [Long.bits, BitVec.toInt_append]
  show 2 ^ 16 * l.hi.toInt + _ = _
  omega

/-- A value is cut to 32 bits, and V says that it does not fit. -/
theorem toInt_ofInt_ne_iff (v : Int) :
    (BitVec.ofInt 32 v).toInt ≠ v ↔ v < -0o20000000000 ∨ 0o17777777777 < v := by
  rw [BitVec.toInt_ofInt, Int.bmod_def]
  split <;> omega

theorem longResult_eq (v : Int) : longResult v =
    let z := BitVec.ofInt 32 v
    ({ hi := z.extractLsb' 16 16, lo := z.extractLsb' 0 16 },
      { n := z.getLsbD 31, z := z == 0, v := decide (v < -0o20000000000 ∨ 0o17777777777 < v),
        c := decide (v < 0) && z != 0 }) := by
  simp only [longResult, toInt_ofInt_ne_iff]
  rfl

theorem putLong_register (q : Word) (l : Long) (s : State) :
    putLong .register q l s = .ok false ((s.withReg .r2 l.hi).withReg .r3 l.lo) := rfl

theorem putLong_inLine {q : Word} {l : Long} {s t u : State} {p p' : Bool} (hlo : writeWord q l.lo s = .ok p t)
    (hhi : writeWord (q + 2) l.hi t = .ok p' u) : putLong .inLine q l s = .ok (p || p') u :=
  (bind_of_ok hlo).trans (bind_of_ok hhi)

/-! The instructions. -/

section Exec

variable (cls : DecClass) (form : CisForm) (s : State)

theorem exec_decCompare : exec (cls.pick form .cmpn .cmpni .cmpp .cmppi) s = runInstr (decCompare form cls) s := by
  cases cls <;> cases form <;> rfl

theorem exec_decShift : exec (cls.pick form .ashn .ashni .ashp .ashpi) s = runInstr (decShiftInstr form cls) s := by
  cases cls <;> cases form <;> rfl

theorem exec_decConvert : exec (cls.pick form .cvtnp .cvtnpi .cvtpn .cvtpni) s
    = runInstr (decConvert form cls cls.other) s := by
  cases cls <;> cases form <;> rfl

theorem exec_decToLong : exec (cls.pick form .cvtnl .cvtnli .cvtpl .cvtpli) s = runInstr (decToLong form cls) s := by
  cases cls <;> cases form <;> rfl

theorem exec_decFromLong : exec (cls.pick form .cvtln .cvtlni .cvtlp .cvtlpi) s = runInstr (decFromLong form cls) s := by
  cases cls <;> cases form <;> rfl

end Exec

section Runs

variable {s s1 s2 s3 s4 t : State} {form : CisForm} {cls : DecClass} {a b : Desc} {x y : Dec} {v w : Option Int}
  {m n : Int} {p : Bool} {free : List Byte}
  (hcis : s.cfg.cisPresent = true) (hps : s.ps.getLsbD 8 = false) (ha : ddesc a.fst a.snd cls = some x)

include hcis hps ha

section Pair

variable (hops : descPair form s = .ok (a, b) s1)

include hops

theorem decCompare_valid (hb : ddesc b.fst b.snd cls = some y) (hx : x.read s1 = .ok (some m) s2)
    (hy : y.read s2 = .ok (some n) s3) : runInstr (decCompare form cls) s
      = completed (cisEnd false { n := decide (m < n), z := decide (m = n), v := false, c := false }
        (form.cleared [.r0, .r1, .r2, .r3] s3)) :=
  runInstr_ok ((decCompare_of_decs hcis hps hops ha hb).trans
    ((bind_of_ok hx).trans ((bind_of_ok hy).trans (decDone_run form _ false _ s3))))

theorem decCompare_free (hb : ddesc b.fst b.snd cls = some y) (hx : x.read s1 = .ok v s2) (hy : y.read s2 = .ok w s3)
    (h : v = none ∨ w = none) : ∃ k, runInstr (decCompare form cls) s
      = completed (cisEnd false k (form.cleared [.r0, .r1, .r2, .r3] { s3 with free := s3.free + 1 })) := by
  obtain ⟨k, hk⟩ := anyCodes_run s3
  have hrun := (decCompare_of_decs hcis hps hops ha hb).trans ((bind_of_ok hx).trans (bind_of_ok hy))
  have hend := (bind_of_ok hk).trans (decDone_run form [.r0, .r1, .r2, .r3] false k _)
  refine ⟨k, runInstr_ok (hrun.trans ?_)⟩
  rcases h with rfl | rfl
  · exact hend
  · cases v <;> exact hend

theorem decConvert_run (hb : ddesc b.fst b.snd cls.other = some y) (hx : x.read s1 = .ok v s2) :
    decConvert form cls cls.other s
      = y.store form [.r0, .r1] (convertOutcome (s2.forbiddenOverlap .never x y) v) s2 :=
  (decConvert_of_decs hcis hps hops ha hb).trans (bind_of_ok hx)

end Pair

theorem decShiftInstr_run {sd : Word} (hops : shiftOps form s = .ok (a, b, sd) s1) (hsd : sd &&& 0o170000 = 0)
    (hb : ddesc b.fst b.snd cls = some y) (hx : x.read s1 = .ok v s2) :
    decShiftInstr form cls s
      = y.store form [.r0, .r1, .r4] (shiftOutcome sd (s2.forbiddenOverlap .never x y) v) s2 :=
  (decShiftInstr_of_decs hcis hps hops hsd ha hb).trans (bind_of_ok hx)

section ToLong

variable {q : Word} (hops : toLongOps form s = .ok (a, q) s1)

include hops

theorem decToLong_valid (hx : x.read s1 = .ok (some m) s2) (hput : putLong form q (longResult m).1 s2 = .ok p t) :
    runInstr (decToLong form cls) s = completed (cisEnd p (longResult m).2 (form.cleared [.r0, .r1] t)) :=
  runInstr_ok ((decToLong_of_dec hcis hps hops ha).trans
    ((bind_of_ok hx).trans ((bind_of_ok hput).trans (decDone_run form _ p _ t))))

theorem decToLong_free (hx : x.read s1 = .ok none s2)
    (hput : putLong form q { hi := Config.freeWord s2.free, lo := Config.freeWord (s2.free + 1) }
      { s2 with free := s2.free + 2 } = .ok p t) :
    ∃ k, runInstr (decToLong form cls) s
      = completed (cisEnd p k (form.cleared [.r0, .r1] { t with free := t.free + 1 })) := by
  obtain ⟨k, hk⟩ := anyCodes_run t
  exact ⟨k, runInstr_ok ((decToLong_of_dec hcis hps hops ha).trans
    ((bind_of_ok hx).trans ((bind_of_ok hput).trans ((bind_of_ok hk).trans (decDone_run form _ p k _)))))⟩

end ToLong

end Runs

/-- The end of an instruction that stores a value, and of one that stores free bytes. -/
theorem runInstr_store {d : Dec} {form : CisForm} {rs : List Reg} {x : M Unit} {n : Int} {s s1 t : State} {p : Bool}
    (hx : x s = d.store form rs (.value n) s1) (h : storeBytes d.adr (decResult d.type d.len n).1 s1 = .ok p t) :
    runInstr x s = completed (cisEnd p (decResult d.type d.len n).2 (form.cleared rs t)) :=
  runInstr_ok (hx.trans (store_run (deliver_value h) rs))

theorem runInstr_store_free {d : Dec} {form : CisForm} {rs : List Reg} {x : M Unit} {s s1 s2 t : State} {p : Bool}
    {free : List Byte} (hx : x s = d.store form rs .unpredictable s1) (hany : anyBytes (d.type.size d.len) s1 = .ok free s2)
    (h : storeBytes d.adr free s2 = .ok p t) :
    ∃ k, runInstr x s = completed (cisEnd p k (form.cleared rs { t with free := t.free + 1 })) := by
  obtain ⟨k, hk⟩ := deliver_free (o := .unpredictable) rfl hany h
  exact ⟨k, runInstr_ok (hx.trans (store_run hk rs))⟩

/-- Settles O54: each instruction by its outcome and what stores it. -/
theorem decimalConversions : Obligations.DecimalConversions := by
  refine ⟨fun s hcis hps => ?suspended, putLong_register, fun q l s t u p p' => putLong_inLine,
    fun s s1 form cls a b hcis hps => ?faults, fun s s1 s2 s3 t form cls a b x y v w p hcis hps => ?values⟩
  case suspended =>
    repeat refine List.forall_mem_cons.mpr ⟨runInstr_cisInstr_suspended hcis hps _, ?_⟩
    exact List.forall_mem_nil _
  case faults =>
    intro pick other compares converts shifts toLong unpredictable leaves
    refine ⟨fun hops => ⟨fun h => ?_, fun h => ?_⟩, fun sd hops h => ?_, fun q hops h => ?_, fun l hops h => ?_,
      fun x v s2 ha hx => ⟨fun y w s3 hops hb hy h => ?compare, fun sd y free s3 p t hops hsd hb h hany hstore => ?shift,
        fun y free s3 p t hops hb h hany hstore => ?convert, fun q p t hops h hput => ?toLong⟩⟩
    · exact (exec_decCompare cls form s).trans (runInstr_congr (decCompare_unpredictable hcis hps hops h))
    · exact (exec_decConvert cls form s).trans (runInstr_congr (decConvert_unpredictable hcis hps hops h))
    · exact (exec_decShift cls form s).trans (runInstr_congr (decShiftInstr_unpredictable hcis hps hops h))
    · exact (exec_decToLong cls form s).trans (runInstr_congr (decToLong_unpredictable hcis hps hops h))
    · exact (exec_decFromLong cls form s).trans (runInstr_congr (decFromLong_unpredictable hcis hps hops h))
    case compare =>
      obtain ⟨k, hk⟩ := decCompare_free hcis hps ha hops hb hx hy h
      exact ⟨k, (exec_decCompare cls form s).trans hk⟩
    case shift =>
      have hrun := decShiftInstr_run hcis hps ha hops hsd hb hx
      rw [shiftOutcome_unpredictable h] at hrun
      obtain ⟨k, hk⟩ := runInstr_store_free hrun hany hstore
      exact ⟨k, (exec_decShift cls form s).trans hk⟩
    case convert =>
      have hrun := decConvert_run hcis hps ha hops hb hx
      rw [convertOutcome_unpredictable h] at hrun
      obtain ⟨k, hk⟩ := runInstr_store_free hrun hany hstore
      exact ⟨k, (exec_decConvert cls form s).trans hk⟩
    case toLong =>
      subst h
      obtain ⟨k, hk⟩ := decToLong_free hcis hps ha hops hx hput
      exact ⟨k, (exec_decToLong cls form s).trans hk⟩
  case values =>
    intro pick clears ha
    refine ⟨fun hops hb hx hy => ?compare, fun sd hops hsd hb hx hclash => ?shift, fun hops hb hx hclash hstore => ?convert,
      fun q hops hx => ?toLong, fun l hops => ?fromLong⟩
    case compare =>
      exact (exec_decCompare cls form s).trans (decCompare_valid hcis hps ha hops hb hx hy)
    case shift =>
      intro count m k shifted r hstore
      have hround : sd.toNat / 256 % 16 = sd.toNat / 256 := Nat.mod_eq_of_lt (by omega)
      have hvalue : shiftedValue sd v = if v < 0 then -(shifted : Int) else shifted := by
        rw [shiftedValue_eq, hround]
      have hrun := decShiftInstr_run hcis hps ha hops (and_reserved_eq_zero (by omega)) hb hx
      rw [hclash, shiftOutcome_valid (by omega), hvalue] at hrun
      exact (exec_decShift cls form s).trans (runInstr_store hrun hstore)
    case convert =>
      have hrun := decConvert_run hcis hps ha hops hb hx
      rw [hclash] at hrun
      exact (exec_decConvert cls form s).trans (runInstr_store hrun hstore)
    case toLong =>
      intro z k hput
      have hresult : longResult v = ({ hi := z.extractLsb' 16 16, lo := z.extractLsb' 0 16 }, k) := longResult_eq v
      have hrun := decToLong_valid (p := p) (t := t) hcis hps ha hops hx (by rw [hresult]; exact hput)
      rw [hresult] at hrun
      exact (exec_decToLong cls form s).trans hrun
    case fromLong =>
      intro r hstore
      have hrun := decFromLong_of_dec hcis hps hops ha
      rw [long_toInt] at hrun
      exact (exec_decFromLong cls form s).trans (runInstr_store hrun hstore)

end Sys2Proof.Machine

namespace Sys2Proof.Machine

/-! A reference of a decimal instruction that fails (spec/49_cis_decimal.md R646, R650, R663, R666, R670). -/

/-- A string to be stored, that of the value or of free bytes, whose store ends in the abort makes `q`. -/
def Dec.storeEnds (y : Dec) (k : AbortKind) (u : State) (value : Option Int) (s : State) (q : Prop) : Prop :=
  match value with
  | some v => storeBytes y.adr (decResult y.type y.len v).1 s = .error (.abort k) u → q
  | none => ∀ free s4, anyBytes (y.type.size y.len) s = .ok free s4 → storeBytes y.adr free s4 = .error (.abort k) u → q

theorem storeEnds_of_deliver {y : Dec} {k : AbortKind} {s u : State} {o : DecOutcome} {value : Option Int} {q : Prop}
    (ho : o.stored = value) (h : y.deliver o s = .error (.abort k) u → q) : y.storeEnds k u value s q := by
  cases value with
  | some v => exact fun hstore => h (deliver_value_fails ho hstore)
  | none => exact fun free s4 hany hstore => h (deliver_free_fails ho hany hstore)

/-! What each outcome stores. -/

/-- The value that an arithmetic instruction stores. -/
def arithValue (f : Int → Int → Option Int) (clash : Bool) (v1 v2 : Option Int) : Option Int :=
  match v1, v2 with
  | some v1, some v2 => if clash then none else f v1 v2
  | _, _ => none

theorem arithOutcome_stored {f : Int → Int → Option Int} {g : Int → Int → DecOutcome}
    (hg : ∀ v1 v2, (g v1 v2).stored = f v1 v2) (clash : Bool) (v1 v2 : Option Int) :
    (arithOutcome g clash v1 v2).stored = arithValue f clash v1 v2 := by
  cases v1 with
  | none => cases clash <;> rfl
  | some v1 =>
    cases v2 with
    | none => cases clash <;> rfl
    | some v2 =>
      cases clash with
      | false => exact hg v1 v2
      | true => rfl

theorem decDiv_stored (v1 v2 : Int) : (decDiv v1 v2).stored = if v1 = 0 then none else some (v2.tdiv v1) := by
  unfold decDiv
  split <;> rfl

theorem shiftOutcome_stored (sd : Word) (clash : Bool) (v : Option Int) : (shiftOutcome sd clash v).stored
    = v.bind fun v => if decide (9 < sd.toNat / 256 % 16) || clash then none else some (shiftedValue sd v) := by
  cases v with
  | none => rfl
  | some v =>
    by_cases hdigit : sd.toNat / 256 % 16 ≤ 9
    · cases clash with
      | false => simp [shiftOutcome_valid hdigit, DecOutcome.stored, hdigit]
      | true => simp [shiftOutcome_unpredictable, DecOutcome.stored]
    · rw [shiftOutcome_unpredictable (.inr (.inl (not_le.mp hdigit)))]
      simp [DecOutcome.stored, not_le.mp hdigit]

theorem convertOutcome_stored (clash : Bool) (v : Option Int) :
    (convertOutcome clash v).stored = if clash then none else v := by
  cases clash with
  | true => rfl
  | false => cases v <;> rfl

/-! The instructions that compute one string from two. -/

/-- Each with the value it stores, if any. -/
def decComputing (cls : DecClass) (rule : OverlapRule) (form : CisForm) : List ((Int → Int → Option Int) × Instr) :=
  let add (v1 v2 : Int) : Option Int := some (v2 + v1)
  let sub (v1 v2 : Int) : Option Int := some (v2 - v1)
  match cls, rule, form with
  | .numeric, .coincident, .register => [(add, .addn), (sub, .subn)]
  | .numeric, .coincident, .inLine => [(add, .addni), (sub, .subni)]
  | .packed, .coincident, .register => [(add, .addp), (sub, .subp)]
  | .packed, .coincident, .inLine => [(add, .addpi), (sub, .subpi)]
  | .packed, .never, form =>
    [(fun v1 v2 => some (v2 * v1), form.pick .mulp .mulpi),
      (fun v1 v2 => if v1 = 0 then none else some (v2.tdiv v1), form.pick .divp .divpi)]
  | .numeric, .never, _ => []

theorem exec_of_mem_decComputing {cls : DecClass} {rule : OverlapRule} {form : CisForm}
    {f : Int → Int → Option Int} {i : Instr} (h : (f, i) ∈ decComputing cls rule form) :
    ∃ g, (∀ s, exec i s = runInstr (decArith form cls rule g) s) ∧ ∀ v1 v2, (g v1 v2).stored = f v1 v2 := by
  cases rule with
  | coincident =>
    have hmem : (f, i) ∈ [(fun v1 v2 => some (v2 + v1), cls.pick form .addn .addni .addp .addpi),
        (fun v1 v2 => some (v2 - v1), cls.pick form .subn .subni .subp .subpi)] := by
      cases cls <;> cases form <;> exact h
    rcases List.mem_pair.mp hmem with h | h <;> obtain ⟨rfl, rfl⟩ := Prod.mk.inj h
    · exact ⟨decAdd, exec_decAdd cls form, fun _ _ => rfl⟩
    · exact ⟨decSub, exec_decSub cls form, fun _ _ => rfl⟩
  | never =>
    cases cls with
    | numeric => cases h
    | packed =>
      rcases List.mem_pair.mp h with h | h <;> obtain ⟨rfl, rfl⟩ := Prod.mk.inj h
      · exact ⟨decMul, exec_decMul form, fun _ _ => rfl⟩
      · exact ⟨decDiv, exec_decDiv form, decDiv_stored⟩

/-- Settles O57: each instruction up to the byte or word that fails. -/
theorem decimalAbort : Obligations.DecimalAbort := by
  intro k s u s1 form hcis hps trap
  have htrap : ∀ {i}, exec i s = abortTrap k u → trap [i] := by
    intro i h j hj
    rw [List.mem_singleton.mp hj, h, abortTrap]
    cases k <;> rfl
  refine ⟨fun cls rule a b c x y d hops ha hb hc => ?arith, fun cls a b x y ha => ?others⟩
  case arith =>
    intro computing f i hi
    obtain ⟨g, hexec, hstored⟩ := exec_of_mem_decComputing hi
    have hstops (h : decArith form cls rule g s = .error (.abort k) u) : trap [i] :=
      htrap ((hexec s).trans (runInstr_stops h))
    have hrun := decArith_of_decs hcis hps rule g hops ha hb hc
    refine ⟨fun h => hstops (hrun.trans (bind_of_error h)), fun v1 s2 hx =>
      ⟨fun h => hstops (hrun.trans ((bind_of_ok hx).trans (bind_of_error h))), fun v2 s3 hy => ?_⟩⟩
    intro value
    exact storeEnds_of_deliver (arithOutcome_stored hstored _ v1 v2) fun h =>
      hstops ((decArith_run hcis hps rule g hops ha hb hc hx hy).trans (store_fails h _))
  case others =>
    intro pick stores
    refine ⟨fun hops hb => ?compare, fun sd hops hsd hb => ?shift, fun hops hb => ?convert, fun q hops => ?toLong,
      fun l hops => ?fromLong⟩
    case compare =>
      have hrun := decCompare_of_decs hcis hps hops ha hb
      exact ⟨fun h => htrap ((exec_decCompare cls form s).trans (runInstr_stops (hrun.trans (bind_of_error h)))),
        fun v s2 hx h => htrap ((exec_decCompare cls form s).trans
          (runInstr_stops (hrun.trans ((bind_of_ok hx).trans (bind_of_error h)))))⟩
    case shift =>
      intro i count digit m
      have hrun := decShiftInstr_of_decs hcis hps hops hsd ha hb
      have hstops (h : decShiftInstr form cls s = .error (.abort k) u) : trap [i] :=
        htrap ((exec_decShift cls form s).trans (runInstr_stops h))
      refine ⟨fun h => hstops (hrun.trans (bind_of_error h)), fun v s2 hx => ?_⟩
      intro isFree
      have hvalue : (shiftOutcome sd (s2.forbiddenOverlap .never x y) v).stored
          = v.bind fun v => if isFree then none else some (if v < 0 then -(m v : Int) else m v) := by
        rw [shiftOutcome_stored]
        simp only [shiftedValue_eq]
        rfl
      exact storeEnds_of_deliver hvalue fun h => hstops
        ((decShiftInstr_run hcis hps ha hops hsd hb hx).trans (store_fails h _))
    case convert =>
      intro i
      have hrun := decConvert_of_decs (toCls := cls.other) hcis hps hops ha hb
      have hstops (h : decConvert form cls cls.other s = .error (.abort k) u) : trap [i] :=
        htrap ((exec_decConvert cls form s).trans (runInstr_stops h))
      refine ⟨fun h => hstops (hrun.trans (bind_of_error h)), fun v s2 hx => ?_⟩
      exact storeEnds_of_deliver (convertOutcome_stored _ v) fun h => hstops
        ((decConvert_run hcis hps ha hops hb hx).trans (store_fails h _))
    case toLong =>
      intro i
      have hrun := decToLong_of_dec hcis hps hops ha
      have hstops (h : decToLong form cls s = .error (.abort k) u) : trap [i] :=
        htrap ((exec_decToLong cls form s).trans (runInstr_stops h))
      refine ⟨fun h => hstops (hrun.trans (bind_of_error h)), fun v s2 hx => ?_, fun s2 hx => ?_⟩
      · intro z hput
        have hresult : (longResult v).1 = { hi := z.extractLsb' 16 16, lo := z.extractLsb' 0 16 } :=
          congrArg Prod.fst (longResult_eq v)
        rw [← hresult] at hput
        exact hstops (hrun.trans ((bind_of_ok hx).trans (bind_of_error hput)))
      · intro l hput
        have hfree (t : State) : nextFree t = .ok t.free { t with free := t.free + 1 } := rfl
        exact hstops (hrun.trans ((bind_of_ok hx).trans
          ((bind_of_ok (hfree s2)).trans ((bind_of_ok (hfree _)).trans (bind_of_error hput)))))
    case fromLong =>
      have hrun := decFromLong_of_dec hcis hps hops ha
      rw [long_toInt] at hrun
      exact storeEnds_of_deliver rfl fun h =>
        htrap ((exec_decFromLong cls form s).trans (runInstr_stops (hrun.trans (store_fails h _))))

end Sys2Proof.Machine

namespace Sys2Proof.Machine

/-! Decimal strings as they stand in memory (spec/49_cis_decimal.md R640 to R646). -/

/-! Digits. -/

theorem digitsValue_append (acc : Nat) (xs ys : List Nat) :
    digitsValue acc (xs ++ ys) = (digitsValue acc xs).bind fun a => digitsValue a ys := by
  induction xs generalizing acc with
  | nil => rfl
  | cons d rest ih =>
    simp only [List.cons_append, digitsValue]
    split
    · exact ih _
    · rfl

theorem digitsOf_length (n m : Nat) : (digitsOf n m).length = n := by
  induction n generalizing m with
  | zero => rfl
  | succ n ih => rw [digitsOf, List.length_append, ih, List.length_singleton]

theorem lt_ten_of_mem_digitsOf {n m d : Nat} (h : d ∈ digitsOf n m) : d < 10 := by
  induction n generalizing m with
  | zero => cases h
  | succ n ih =>
    rcases List.mem_append.mp h with hfront | hlast
    · exact ih hfront
    · rw [List.mem_singleton.mp hlast]
      exact Nat.mod_lt m (by decide)

/-- The last digits of a number have it as their value, but for what is above them. -/
theorem digitsValue_digitsOf (n m : Nat) : digitsValue 0 (digitsOf n m) = some (m % 10 ^ n) := by
  induction n generalizing m with
  | zero => simp [digitsOf, digitsValue, Nat.mod_one]
  | succ n ih =>
    have hdigit : m % 10 ≤ 9 := by omega
    have hmod : m % 10 ^ (n + 1) = m / 10 % 10 ^ n * 10 + m % 10 := by
      rw [Nat.pow_succ', Nat.mod_mul, add_comm, mul_comm]
    rw [digitsOf, digitsValue_append, ih, hmod]
    exact if_pos hdigit

/-! The bytes of digits and signs. -/

theorem lowNibble_digitByte : ∀ d < 10, lowNibble (digitByte d) = d := by
  decide

theorem lowNibbles_of_digitBytes {ds : List Nat} (h : ∀ d ∈ ds, d < 10) : (ds.map digitByte).map lowNibble = ds := by
  rw [List.map_map]
  exact (List.map_congr_left fun d hd => lowNibble_digitByte d (h d hd)).trans (List.map_id ds)

/-- A byte with a sign and a digit gives both. -/
def ReadsBack (split : Byte → Option (Bool × Nat)) (sign : Nat → Byte) (neg : Bool) : Prop :=
  ∀ d < 10, split (sign d) = some (neg, d)

/-- The sign and the digit of a zoned byte (R643). -/
def zonedSplit (b : Byte) : Option (Bool × Nat) := (zonedSign b).map fun neg => (neg, lowNibble b)

/-- The preferred zoned byte (R643). -/
def zonedByte (neg : Bool) (d : Nat) : Byte := BitVec.ofNat 8 ((if neg then 0x70 else 0x30) + d)

theorem zoned_readsBack (neg : Bool) : ReadsBack zonedSplit (zonedByte neg) neg := by
  cases neg <;> unfold ReadsBack <;> decide

theorem overpunch_readsBack (neg : Bool) : ReadsBack overpunched (overpunch neg) neg := by
  cases neg <;> unfold ReadsBack <;> decide

/-- The value of a string whose last byte carries the sign. -/
def lastShared (split : Byte → Option (Bool × Nat)) (bytes : List Byte) : Option Int :=
  match bytes.getLast? with
  | none => some 0
  | some b => sharedSign split bytes.dropLast b []

/-- The value of a string whose first byte carries the sign. -/
def firstShared (split : Byte → Option (Bool × Nat)) : List Byte → Option Int
  | [] => some 0
  | b :: rest => sharedSign split [] b rest

section Shared

variable {split : Byte → Option (Bool × Nat)} {sign : Nat → Byte} {neg : Bool} (hsign : ReadsBack split sign neg)

include hsign

/-- Digits one of which carries the sign. -/
theorem sharedSign_run {before after : List Nat} {d : Nat} (hds : ∀ x ∈ before ++ d :: after, x < 10) :
    sharedSign split (before.map digitByte) (sign d) (after.map digitByte)
      = (digitsValue 0 (before ++ d :: after)).map (signedValue neg) := by
  have hd : d < 10 := hds d (by simp)
  have hbefore : ∀ x ∈ before, x < 10 := fun x hx => hds x (by simp [hx])
  have hafter : ∀ x ∈ after, x < 10 := fun x hx => hds x (by simp [hx])
  rw [sharedSign, hsign d hd, lowNibbles_of_digitBytes hbefore, lowNibbles_of_digitBytes hafter]
  exact (Option.map_eq_bind).symm

theorem lastShared_signLast {ds : List Nat} (hds : ∀ x ∈ ds, x < 10) :
    lastShared split (signLast sign ds) = (digitsValue 0 ds).map (signedValue neg) := by
  rcases List.eq_nil_or_concat' ds with rfl | ⟨front, d, rfl⟩
  · cases neg <;> rfl
  · have hlast : signLast sign (front ++ [d]) = front.map digitByte ++ [sign d] := by
      simp [signLast]
    rw [hlast, lastShared, List.getLast?_concat, List.dropLast_concat]
    exact sharedSign_run hsign (after := []) hds

theorem firstShared_signFirst {ds : List Nat} (hds : ∀ x ∈ ds, x < 10) :
    firstShared split (signFirst sign ds) = (digitsValue 0 ds).map (signedValue neg) := by
  cases ds with
  | nil => cases neg <;> rfl
  | cons d rest => exact sharedSign_run hsign (before := []) hds

end Shared

theorem separateSign_run (neg : Bool) : separateSign (if neg then 0x2d else 0x2b) = some neg := by
  cases neg <;> rfl

/-! Packed strings (R642). -/

theorem packNibbles_length : ∀ ns : List Nat, (packNibbles ns).length = ns.length / 2
  | [] => rfl
  | [n] => by rw [packNibbles, List.length_nil, List.length_singleton]
  | hi :: lo :: rest => by
    rw [packNibbles, List.length_cons, packNibbles_length rest, List.length_cons, List.length_cons]
    omega

/-- Nibbles packed two to a byte can be taken apart again. -/
theorem nibbles_packNibbles : ∀ ns : List Nat, (∀ x ∈ ns, x < 16) → ns.length % 2 = 0 →
    ((packNibbles ns).flatMap fun b => [highNibble b, lowNibble b]) = ns
  | [], _, _ => rfl
  | [_], _, h => by simp at h
  | hi :: lo :: rest, hns, h => by
    have hhi : hi < 16 := hns hi (by simp)
    have hlo : lo < 16 := hns lo (by simp)
    have hbyte : (BitVec.ofNat 8 (hi * 16 + lo)).toNat = hi * 16 + lo := by
      rw [BitVec.toNat_ofNat]
      omega
    have hrest := nibbles_packNibbles rest (fun x hx => hns x (by simp [hx])) (by simp at h; omega)
    rw [packNibbles, List.flatMap_cons, hrest, highNibble, lowNibble, hbyte]
    simp only [List.cons_append, List.nil_append]
    congr 1
    · omega
    · congr 1
      omega

/-- The zero before an even number of digits. -/
def packedPad (digits : List Nat) : List Nat := if digits.length % 2 = 0 then [0] else []

theorem packedPad_length (digits : List Nat) : (packedPad digits).length = 1 - digits.length % 2 := by
  unfold packedPad
  split
  · next h => rw [h]; rfl
  · next h => rw [Nat.mod_two_ne_zero.mp h]; rfl

theorem packedBytes_length (digits : List Nat) (sign : Nat) : (packedBytes digits sign).length = digits.length / 2 + 1 := by
  show (packNibbles (packedPad digits ++ digits ++ [sign])).length = _
  rw [packNibbles_length, List.length_append, List.length_append, packedPad_length, List.length_singleton]
  omega

theorem digitsValue_pad (digits : List Nat) : digitsValue 0 (packedPad digits ++ digits) = digitsValue 0 digits := by
  unfold packedPad
  split <;> rfl

/-- A packed string gives back its digits, and the sign of its nibble. -/
theorem packedValue_packedBytes {signed neg : Bool} {sign : Nat} {ds : List Nat} (hds : ∀ x ∈ ds, x < 10)
    (hlarge : sign < 16) (hsign : packedSign signed sign = some neg) :
    packedValue signed ds.length ((packedBytes ds sign).flatMap fun b => [highNibble b, lowNibble b])
      = (digitsValue 0 ds).map (signedValue neg) := by
  have hpad : ∀ x ∈ packedPad ds, x < 10 := by
    unfold packedPad
    split <;> simp
  have hnibbles : ∀ x ∈ packedPad ds ++ ds ++ [sign], x < 16 := by
    intro x hx
    rcases List.mem_append.mp hx with hx | hx
    · rcases List.mem_append.mp hx with hx | hx
      · exact (hpad x hx).trans (by decide)
      · exact (hds x hx).trans (by decide)
    · exact (List.mem_singleton.mp hx).trans_lt hlarge
  have heven : (packedPad ds ++ ds ++ [sign]).length % 2 = 0 := by
    rw [List.length_append, List.length_append, packedPad_length, List.length_singleton]
    omega
  have hhead : ¬ (ds.length % 2 = 0 ∧ (packedPad ds ++ ds ++ [sign]).headD 0 ≠ 0) := by
    rintro ⟨h, hne⟩
    refine hne ?_
    rw [packedPad, if_pos h]
    rfl
  have htake : (packedPad ds ++ ds ++ [sign]).take ((packedPad ds ++ ds ++ [sign]).length - 1) = packedPad ds ++ ds := by
    rw [← List.dropLast_eq_take, List.dropLast_concat]
  have hlast : (packedPad ds ++ ds ++ [sign]).getLastD 0 = sign := by
    simp
  have hbytes : ((packedBytes ds sign).flatMap fun b => [highNibble b, lowNibble b]) = packedPad ds ++ ds ++ [sign] :=
    nibbles_packNibbles _ hnibbles heven
  rw [hbytes, packedValue, htake, hlast, hsign, digitsValue_pad]
  simp only [Option.bind_eq_bind, Option.bind_some, if_neg hhead]
  exact (Option.map_eq_bind).symm

/-! Every type. -/

/-- What a type stores of digits and a sign, it reads back, the sign when it can show one. -/
theorem decValue_decBytes (type : DecType) (neg : Bool) {ds : List Nat} (hds : ∀ x ∈ ds, x < 10) :
    decValue type ds.length (decBytes type ds neg) = (digitsValue 0 ds).map (signedValue (neg && type.signed)) := by
  cases type with
  | signedZoned =>
    rw [DecType.signed, Bool.and_true]
    exact lastShared_signLast (zoned_readsBack neg) hds
  | unsignedZoned =>
    rw [DecType.signed, Bool.and_false, decBytes, decValue, lowNibbles_of_digitBytes hds]
    cases digitsValue 0 ds <;> rfl
  | trailingOverpunched =>
    rw [DecType.signed, Bool.and_true]
    exact lastShared_signLast (overpunch_readsBack neg) hds
  | leadingOverpunched =>
    rw [DecType.signed, Bool.and_true]
    exact firstShared_signFirst (overpunch_readsBack neg) hds
  | trailingSeparate =>
    simp only [decValue, decBytes, List.getLastD_concat, List.dropLast_concat, separateSign_run,
      lowNibbles_of_digitBytes hds, DecType.signed, Bool.and_true]
    exact (Option.map_eq_bind).symm
  | leadingSeparate =>
    simp only [decValue, decBytes, List.headD_cons, List.tail_cons, separateSign_run,
      lowNibbles_of_digitBytes hds, DecType.signed, Bool.and_true]
    exact (Option.map_eq_bind).symm
  | signedPacked =>
    rw [DecType.signed, Bool.and_true]
    exact packedValue_packedBytes hds (by cases neg <;> decide) (by cases neg <;> rfl)
  | unsignedPacked =>
    rw [DecType.signed, Bool.and_false]
    exact packedValue_packedBytes hds (by decide) rfl

theorem signLast_length (sign : Nat → Byte) (ds : List Nat) : (signLast sign ds).length = ds.length := by
  rcases List.eq_nil_or_concat ds with rfl | ⟨front, d, rfl⟩ <;> simp [signLast]

theorem signFirst_length (sign : Nat → Byte) (ds : List Nat) : (signFirst sign ds).length = ds.length := by
  cases ds <;> simp [signFirst]

theorem decBytes_length (type : DecType) (ds : List Nat) (neg : Bool) :
    (decBytes type ds neg).length = type.size ds.length := by
  cases type with
  | signedZoned => exact signLast_length _ ds
  | unsignedZoned => exact List.length_map _
  | trailingOverpunched => exact signLast_length _ ds
  | leadingOverpunched => exact signFirst_length _ ds
  | trailingSeparate => simp [decBytes, DecType.size]
  | leadingSeparate => simp [decBytes, DecType.size]
  | signedPacked => exact packedBytes_length ds _
  | unsignedPacked => exact packedBytes_length ds _

/-- What is stored of a value reads back as its low digits, with its sign where the type can show one (R646). -/
theorem decValue_decResult (type : DecType) (n : Nat) (v : Int) :
    let kept := v.natAbs % 10 ^ n
    decValue type n (decResult type n v).1
      = some (if v < 0 ∧ type.signed = true then -(kept : Int) else kept) := by
  intro kept
  have hlen : (digitsOf n kept).length = n := digitsOf_length n kept
  have hval := decValue_decBytes type (decide (v < 0)) fun x hx => lt_ten_of_mem_digitsOf (n := n) (m := kept) hx
  rw [hlen, digitsValue_digitsOf, Nat.mod_mod] at hval
  refine hval.trans (congrArg some ?_)
  by_cases hneg : v < 0 <;> cases type.signed <;> simp [signedValue, hneg, kept]

/-- N tells the sign of a value that is stored as one other than 0, if the type can show a sign (R649). -/
theorem decResult_n (type : DecType) (n : Nat) (v : Int) :
    (decResult type n v).2.n = decide (v < 0 ∧ v.natAbs % 10 ^ n ≠ 0 ∧ type.signed = true) := by
  show (decide (v < 0) && v.natAbs % 10 ^ n != 0 && type.signed) = _
  rw [Bool.eq_iff_iff]
  simp only [Bool.and_eq_true, decide_eq_true_eq, bne_iff_ne, and_assoc]

/-! Descriptors (R641). -/

theorem ofCode_spec : ∀ b : BitVec 3,
    ([.signedZoned, .unsignedZoned, .trailingOverpunched, .leadingOverpunched, .trailingSeparate, .leadingSeparate,
      .signedPacked, .unsignedPacked] : List DecType)[b.toNat]? = some (DecType.ofCode b)
    ∧ (DecType.ofCode b).cls = if b.toNat < 6 then .numeric else .packed := by
  decide

theorem typeField_toNat (w : Word) : (w.extractLsb' 12 3).toNat = w.toNat / 4096 % 8 := by
  simp [BitVec.extractLsb'_toNat, Nat.shiftRight_eq_div_pow]

theorem lenField_toNat (w : Word) : (w.extractLsb' 0 5).toNat = w.toNat % 32 := by
  simp [BitVec.extractLsb'_toNat]

theorem ddesc_iff (w0 w1 : Word) (cls : DecClass) (d : Dec) : ddesc w0 w1 cls = some d ↔
    w0 &&& 0o107740 = 0 ∧ (DecType.ofCode (w0.extractLsb' 12 3)).cls = cls
      ∧ DecType.ofCode (w0.extractLsb' 12 3) = d.type ∧ d.len = w0.toNat % 32 ∧ d.adr = w1 := by
  rw [← lenField_toNat, ddesc]
  dsimp only
  rw [Option.ite_none_right_eq_some, Option.some_inj, and_assoc]
  refine and_congr_right fun _ => and_congr_right fun _ => ?_
  obtain ⟨type, len, adr⟩ := d
  simp only [Dec.mk.injEq, eq_comm]

/-- Settles O55: the digits of a number, and each type's bytes of them, read back. -/
theorem decimalRoundTrip : Obligations.DecimalRoundTrip := by
  refine ⟨fun d bytes s t h => bind_of_ok h, fun w0 w1 cls d => ?descriptor, fun type n v => ?stored,
    fun type n v hsigned => ?fits⟩
  case descriptor =>
    intro code types
    obtain ⟨htype, hcls⟩ := ofCode_spec (w0.extractLsb' 12 3)
    rw [typeField_toNat] at htype hcls
    rw [ddesc_iff, hcls]
    refine and_congr_right fun _ => and_congr eq_comm (and_congr ?_ Iff.rfl)
    exact Option.some_inj.symm.trans (by rw [← htype])
  case stored =>
    intro r kept
    exact ⟨rfl, rfl, decResult_n type n v, decValue_decResult type n v⟩
  case fits =>
    intro r
    have hsign : (v < 0 ∧ type.signed = true) ↔ v < 0 := and_iff_left_of_imp hsigned
    have hvalue := decValue_decResult type n v
    simp only [hsign] at hvalue
    refine ⟨(decBytes_length ..).trans (congrArg _ (digitsOf_length ..)), rfl, fun hlt => ?_, fun _ => hvalue⟩
    have hkept : v.natAbs % 10 ^ n = v.natAbs := Nat.mod_eq_of_lt hlt
    have hn := decResult_n type n v
    rw [hkept] at hvalue hn
    refine ⟨hvalue.trans (congrArg some ?_), hn.trans (decide_eq_decide.mpr ?_), decide_eq_decide.mpr ?_⟩
    · split <;> omega
    · exact ⟨fun h => h.1, fun h => ⟨h, by omega, hsigned h⟩⟩
    · rw [hkept]
      exact Int.natAbs_eq_zero

end Sys2Proof.Machine

namespace Sys2Proof.Machine

/-! What an unpredictable effect reaches (spec/48_cis_character.md R581 (b)). -/

/-! One store. -/

theorem busWrite_ok {pa : PAddr} {lane : Lane} {v : Word} {s t : State} (h : busWrite pa lane v s = .ok ⟨⟩ t) :
    writeCycle pa lane v s.granted = .ok ⟨⟩ t := by
  obtain ⟨⟨⟩, g, hg, hw⟩ := bind_ok_iff.mp h
  rwa [(busGrant_ok hg).1] at hw

/-- A store of an unpredictable effect changes nothing, or is a bus cycle that is answered. -/
theorem scribble_cases (mode : Mode) (s : State) (store : Word × Byte) : scribble mode s store = s
    ∨ ∃ m, translate mode store.1 true s = .ok m s ∧ mayScribble s.cfg mode m.pa = true
      ∧ writeCycle m.pa (laneOf .byte m.pa) (onBothLanes store.2) s.granted = .ok ⟨⟩ (scribble mode s store) := by
  unfold scribble
  cases hm : translate mode store.1 true s with
  | error e t => exact .inl rfl
  | ok m t =>
    obtain rfl := (translate_ok hm).1
    dsimp only
    split
    · next hmay =>
      cases hw : busWrite m.pa (laneOf .byte m.pa) (onBothLanes store.2) t with
      | ok a u => exact .inr ⟨m, rfl, hmay, busWrite_ok hw⟩
      | error e u => exact .inl rfl
    · exact .inl rfl

/-- A property that every store keeps holds after all of them. -/
theorem scribbles_induction {p : State → Prop} {mode : Mode} {s : State} (hs : p s)
    (hstep : ∀ t store, p t → p (scribble mode t store)) (l : List (Word × Byte)) : p (l.foldl (scribble mode) s) := by
  induction l generalizing s with
  | nil => exact hs
  | cons store rest ih => exact ih (hstep s store hs)

/-! The parts of the state it cannot reach. -/

/-- What a bus cycle cannot reach is as it was. -/
structure ReachedByBus (s t : State) : Prop where
  cfg : t.cfg = s.cfg
  regs : t.regs = s.regs
  fpp : t.fpp = s.fpp
  run : t.run = s.run
  pend : t.pend = s.pend
  odt : t.odt = s.odt
  lines : t.lines = s.lines
  inputs : t.inputs = s.inputs

theorem ReachedByBus.trans {s t u : State} (h : ReachedByBus s t) (h' : ReachedByBus t u) : ReachedByBus s u :=
  ⟨h'.cfg.trans h.cfg, h'.regs.trans h.regs, h'.fpp.trans h.fpp, h'.run.trans h.run, h'.pend.trans h.pend,
    h'.odt.trans h.odt, h'.lines.trans h.lines, h'.inputs.trans h.inputs⟩

theorem ReachedByBus.refl (s : State) : ReachedByBus s s := ⟨rfl, rfl, rfl, rfl, rfl, rfl, rfl, rfl⟩

theorem reachedByBus_of_storesIo {s t : State} (h : storesIo s t) : ReachedByBus s t :=
  have h : t = { s with ps := t.ps, mmu := t.mmu, board := t.board, slu1 := t.slu1, slu2 := t.slu2, free := t.free } := h
  ⟨(congrArg State.cfg h :), (congrArg State.regs h :), (congrArg State.fpp h :), (congrArg State.run h :),
    (congrArg State.pend h :), (congrArg State.odt h :), (congrArg State.lines h :), (congrArg State.inputs h :)⟩

theorem reachedByBus_writeCycle {pa : PAddr} {lane : Lane} {v : Word} {s t : State}
    (h : writeCycle pa lane v s = .ok ⟨⟩ t) : ReachedByBus s t := by
  rcases writeCycle_ok h with ⟨-, r, -, hr⟩ | ⟨-, -, rfl⟩
  · obtain ⟨u, hu, hs⟩ := writeIo_ok r lane v s
    rw [hr] at hu
    cases hu
    exact reachedByBus_of_storesIo hs
  · exact ⟨rfl, rfl, rfl, rfl, rfl, rfl, rfl, rfl⟩

theorem reachedByBus_scribble (mode : Mode) (s : State) (store : Word × Byte) :
    ReachedByBus s (scribble mode s store) := by
  rcases scribble_cases mode s store with h | ⟨m, -, -, hw⟩
  · rw [h]
    exact .refl s
  · exact ReachedByBus.trans (t := s.granted) ⟨rfl, rfl, rfl, rfl, rfl, rfl, rfl, rfl⟩ (reachedByBus_writeCycle hw)

theorem reachedByBus_scribbles (mode : Mode) (s : State) (l : List (Word × Byte)) :
    ReachedByBus s (l.foldl (scribble mode) s) :=
  scribbles_induction (.refl s) (fun t store h => h.trans (reachedByBus_scribble mode t store)) l

/-! Outside kernel mode. -/

/-- A register that no program outside kernel mode is to reach so: the PS, or one of the memory management unit. -/
def IoReg.guarded : IoReg → Bool
  | .ps | .sr0 | .sr1 | .sr2 | .sr3 | .par _ _ | .pdr _ _ => true
  | _ => false

/-- Outside kernel mode a store reaches memory, or a register that is not guarded. -/
theorem not_guarded_of_mayScribble {cfg : Config} {mode : Mode} {pa : PAddr} {r : IoReg} (hmode : mode ≠ .kernel)
    (h : mayScribble cfg mode pa = true) (hio : isIoPage pa = true) (hr : ioDecode cfg pa = some r) :
    r.guarded = false := by
  rw [mayScribble, beq_eq_false_iff_ne.mpr hmode, hio, hr] at h
  cases r <;> first | rfl | cases h

theorem writeIo_unguarded {r : IoReg} (hr : r.guarded = false) {lane : Lane} {v : Word} {s t : State}
    (h : writeIo r lane v s = .ok ⟨⟩ t) : t.ps = s.ps ∧ t.mmu = s.mmu := by
  cases r with
  | cdr | lks =>
    simp only [writeIo, run_bind, run_get] at h
    split at h <;> cases h <;> exact ⟨rfl, rfl⟩
  | rcsr u | tcsr u | tbuf u =>
    simp only [writeIo, run_bind, run_get] at h
    split at h <;> cases h <;> cases u <;> exact ⟨rfl, rfl⟩
  | pcr | rwr | rom _ | rbuf _ =>
    cases h
    exact ⟨rfl, rfl⟩
  | ps | sr0 | sr1 | sr2 | sr3 | par _ _ | pdr _ _ => cases hr

/-- What a store outside kernel mode leaves when it wrote through the reference `m`, the DMA masters having had a turn. -/
inductive Scribbled (m : Mapped) (s t : State) : Prop
  | io (hio : isIoPage m.pa = true) (hmem : t.mem = s.granted.mem) (hbus : t.bus = s.granted.bus)
  | memory (hmem : isIoPage m.pa = false) (b : Byte) (ht : t = { s.granted with
      mem := s.granted.mem.writeLane (evenAddr (memoryAddr s.cfg m.pa)) (laneOf .byte m.pa) (onBothLanes b) })

section Outside

variable {mode : Mode} (hmode : mode ≠ .kernel) (s : State) (store : Word × Byte)

include hmode

/-- Outside kernel mode a store changes nothing, or goes through a reference that the mode may make. -/
theorem scribble_outside : scribble mode s store = s
    ∨ ((scribble mode s store).ps = s.ps ∧ (scribble mode s store).mmu = s.mmu)
      ∧ ∃ m, translate mode store.1 true s = .ok m s ∧ Scribbled m s (scribble mode s store) := by
  rcases scribble_cases mode s store with h | ⟨m, hm, hmay, hw⟩
  · exact .inl h
  · refine .inr ?_
    rcases writeCycle_ok hw with ⟨hio, r, hr, hwrite⟩ | ⟨hmem, -, hwrite⟩
    · obtain ⟨u, hu, hs⟩ := writeIo_ok r (laneOf .byte m.pa) (onBothLanes store.2) s.granted
      rw [hwrite] at hu
      cases hu
      unfold storesIo at hs
      exact ⟨(writeIo_unguarded (not_guarded_of_mayScribble hmode hmay hio hr) hwrite :), m, hm,
        .io hio (congrArg State.mem hs :) (congrArg State.bus hs :)⟩
    · rw [hwrite]
      exact ⟨⟨rfl, rfl⟩, m, hm, .memory hmem store.2 rfl⟩

theorem scribble_keepsStatus : (scribble mode s store).ps = s.ps ∧ (scribble mode s store).mmu = s.mmu := by
  rcases scribble_outside hmode s store with h | ⟨hkept, -⟩
  · rw [h]
    exact ⟨rfl, rfl⟩
  · exact hkept

end Outside

theorem scribbles_keepStatus {mode : Mode} (hmode : mode ≠ .kernel) (s : State) (l : List (Word × Byte)) :
    (l.foldl (scribble mode) s).ps = s.ps ∧ (l.foldl (scribble mode) s).mmu = s.mmu := by
  refine scribbles_induction (p := fun t => t.ps = s.ps ∧ t.mmu = s.mmu) ⟨rfl, rfl⟩ (fun t store h => ?_) l
  obtain ⟨hps, hmmu⟩ := scribble_keepsStatus hmode t store
  exact ⟨hps.trans h.1, hmmu.trans h.2⟩

/-! What the mode can write through the present mapping. -/

/-- A reference of a mode that writes, with this property of its physical address, is possible. -/
def Writable (mode : Mode) (s : State) (p : PAddr → Prop) : Prop := ∃ va m, translate mode va true s = .ok m s ∧ p m.pa

/-- A reference goes by the memory management unit alone. -/
theorem translate_of_mmu {s t : State} {mode : Mode} {va : Word} {write : Bool} {m : Mapped} (hmmu : t.mmu = s.mmu)
    (h : translate mode va write t = .ok m t) : translate mode va write s = .ok m s := by
  obtain ⟨-, ⟨hoff, rfl⟩ | ⟨hon, p, hp, hf, rfl⟩⟩ := translate_ok h
  · rw [State.relocating, hmmu] at hoff
    exact translate_disabled hoff mode va write
  · rw [State.relocating, hmmu] at hon
    rw [hmmu] at hf ⊢
    exact translate_enabled hon hp hf

/-- What the memory management unit cannot let through, no store reaches: the board and the units. -/
theorem scribbles_keepDevices {s : State} {mode : Mode} (hmode : mode ≠ .kernel)
    (hio : ¬ Writable mode s fun pa => isIoPage pa = true) (l : List (Word × Byte)) :
    (l.foldl (scribble mode) s).board = s.board ∧ (l.foldl (scribble mode) s).slu1 = s.slu1
      ∧ (l.foldl (scribble mode) s).slu2 = s.slu2 := by
  suffices key : (l.foldl (scribble mode) s).mmu = s.mmu ∧ (l.foldl (scribble mode) s).board = s.board
      ∧ (l.foldl (scribble mode) s).slu1 = s.slu1 ∧ (l.foldl (scribble mode) s).slu2 = s.slu2 from key.2
  refine scribbles_induction
    (p := fun t => t.mmu = s.mmu ∧ t.board = s.board ∧ t.slu1 = s.slu1 ∧ t.slu2 = s.slu2)
    ⟨rfl, rfl, rfl, rfl⟩ (fun t store ⟨hmmu, hdevices⟩ => ?_) l
  refine ⟨(scribble_keepsStatus hmode t store).2.trans hmmu, ?_⟩
  rcases scribble_outside hmode t store with h | ⟨-, m, hm, hreach⟩
  · rw [h]
    exact hdevices
  · cases hreach with
    | io hpage _ _ => exact absurd ⟨_, m, translate_of_mmu hmmu hm, hpage⟩ hio
    | memory _ b ht =>
      rw [ht]
      exact hdevices

/-! Memory, which DMA masters write meanwhile. -/

/-- A byte that two memories have in common is still common to them after the same write. -/
theorem Memory.read_write_congr {m m' : Memory} (hm : m.wf = true) (hm' : m'.wf = true) {a : Nat}
    (h : m.read a = m'.read a) (x : Nat) (b : Byte) : (m.write x b).read a = (m'.write x b).read a := by
  by_cases hx : a = x
  · rw [hx, read_write_same x b hm, read_write_same x b hm']
  · rw [read_write_other x a b hx, read_write_other x a b hx, h]

theorem Memory.read_writeLane_congr {m m' : Memory} (hm : m.wf = true) (hm' : m'.wf = true) {a : Nat}
    (h : m.read a = m'.read a) (x : Nat) (lane : Lane) (v : Word) :
    (m.writeLane x lane v).read a = (m'.writeLane x lane v).read a := by
  cases lane with
  | word =>
    exact read_write_congr (wf_write x _ hm) (wf_write x _ hm') (read_write_congr hm hm' h x _) _ _
  | low => exact read_write_congr hm hm' h x _
  | high => exact read_write_congr hm hm' h _ _

/-- Two memories in canonical form that have the bytes of a set in common. -/
def SameBytes (p : Nat → Prop) (m m' : Memory) : Prop :=
  m.wf = true ∧ m'.wf = true ∧ ∀ a, p a → m.read a = m'.read a

theorem sameBytes_dmaCycle {p : Nat → Prop} {x x' : Memory × List (Option Word)} (h : SameBytes p x.1 x'.1)
    (cfg : Config) (c : DmaCycle) : SameBytes p (dmaCycle cfg x c).1 (dmaCycle cfg x' c).1 := by
  have hwrite (pa : PAddr) (size : Size) (v : Word) :
      SameBytes p (dmaWrite cfg pa size v x.1) (dmaWrite cfg pa size v x'.1) := by
    unfold dmaWrite
    split
    · obtain ⟨hm, hm', hread⟩ := h
      exact ⟨Memory.wf_writeLane _ _ _ hm, Memory.wf_writeLane _ _ _ hm',
        fun a ha => Memory.read_writeLane_congr hm hm' (hread a ha) _ _ _⟩
    · exact h
  cases c with
  | dati pa => exact h
  | dato pa size v => exact hwrite pa size v
  | datio pa size v => exact hwrite pa size v

theorem sameBytes_granted {p : Nat → Prop} {s t : State} (hcfg : t.cfg = s.cfg) (hdma : t.bus.dma = s.bus.dma)
    (h : SameBytes p t.mem s.mem) : SameBytes p t.granted.mem s.granted.mem := by
  show SameBytes p (List.foldl (dmaCycle t.cfg) _ (t.bus.dma.headD [])).1
    (List.foldl (dmaCycle s.cfg) _ (s.bus.dma.headD [])).1
  rw [hcfg, hdma]
  generalize s.bus.dma.headD [] = cycles
  have key : ∀ x x' : Memory × List (Option Word), SameBytes p x.1 x'.1 →
      SameBytes p (cycles.foldl (dmaCycle s.cfg) x).1 (cycles.foldl (dmaCycle s.cfg) x').1 := by
    induction cycles with
    | nil => exact fun _ _ hx => hx
    | cons c rest ih => exact fun x x' hx => ih _ _ (sameBytes_dmaCycle hx s.cfg c)
  exact key _ _ h

/-- A byte of memory that the mode can write. -/
def WritableByte (mode : Mode) (s : State) (a : Nat) : Prop :=
  Writable mode s fun pa => isIoPage pa = false ∧ memoryAddr s.cfg pa = a

/-- But for the bytes that the mode can write, memory is what the DMA masters have made of it. -/
theorem scribbles_memory {s : State} {mode : Mode} (hmode : mode ≠ .kernel) (hwf : s.mem.wf = true)
    (l : List (Word × Byte)) : ∃ n, ∀ a, ¬ WritableByte mode s a →
      (l.foldl (scribble mode) s).mem.read a = (s.grants n).mem.read a := by
  suffices key : ∃ n, (l.foldl (scribble mode) s).mmu = s.mmu ∧ (l.foldl (scribble mode) s).cfg = s.cfg
      ∧ (l.foldl (scribble mode) s).bus.dma = (s.grants n).bus.dma
      ∧ SameBytes (fun a => ¬ WritableByte mode s a) (l.foldl (scribble mode) s).mem (s.grants n).mem by
    obtain ⟨n, -, -, -, -, -, h⟩ := key
    exact ⟨n, h⟩
  refine scribbles_induction
    (p := fun t => ∃ n, t.mmu = s.mmu ∧ t.cfg = s.cfg ∧ t.bus.dma = (s.grants n).bus.dma
      ∧ SameBytes (fun a => ¬ WritableByte mode s a) t.mem (s.grants n).mem)
    ⟨0, rfl, rfl, rfl, hwf, hwf, fun _ _ => rfl⟩ (fun t store ⟨n, hmmu, hcfg, hdma, hsame⟩ => ?_) l
  rcases scribble_outside hmode t store with h | ⟨⟨-, hkept⟩, m, hm, hreach⟩
  · rw [h]
    exact ⟨n, hmmu, hcfg, hdma, hsame⟩
  · have hgrants : (s.grants n).cfg = s.cfg := (congrArg State.cfg (grants_eq n s) :)
    have hgranted := sameBytes_granted (hcfg.trans hgrants.symm) hdma hsame
    have htail : t.granted.bus.dma = (s.grants (n + 1)).bus.dma := congrArg List.tail hdma
    refine ⟨n + 1, hkept.trans hmmu, (reachedByBus_scribble mode t store).cfg.trans hcfg, ?_⟩
    cases hreach with
    | io _ hmem hbus =>
      rw [hmem, hbus]
      exact ⟨htail, hgranted⟩
    | memory hpage b ht =>
      rw [ht]
      obtain ⟨hwft, hwfs, hread⟩ := hgranted
      refine ⟨htail, Memory.wf_writeLane _ _ _ hwft, hwfs, fun a ha => ?_⟩
      have hne : a ≠ memoryAddr t.cfg m.pa := by
        rintro rfl
        exact ha ⟨_, m, translate_of_mmu hmmu hm, hpage, by rw [hcfg]⟩
      exact (read_writeLane_byte _ _ _ _ hne).trans (hread a ha)

/-! The registers and the PS. -/

theorem spCell_applyUnpredictable (u : Unpredictable) (s : State) {mode m : Mode} (h : m ≠ mode) :
    spCell (applyUnpredictable u mode s).regs m = spCell s.regs m := by
  have hregs := (reachedByBus_scribbles mode s u.stores).regs
  have hsp := spCell_withSp_other (u.stores.foldl (scribble mode) s).regs h u.sp
  rw [hregs] at hsp
  rw [← hsp, ← hregs]
  cases m <;> rfl

/-! The trap. -/

theorem fpTrapPossible_iff (s : State) (e : FpError) : fpTrapPossible s e = true ↔
    s.cfg.fpPresent = true ∧ s.fpp.fps.getLsbD 14 = false
      ∧ (e = .conversion → s.fpp.fps.getLsbD 8 = true) ∧ (e = .overflow → s.fpp.fps.getLsbD 9 = true)
      ∧ (e = .underflow → s.fpp.fps.getLsbD 10 = true) ∧ (e = .undefinedVariable → s.fpp.fps.getLsbD 11 = true) := by
  cases e <;> simp [fpTrapPossible, fpModes, and_assoc]

/-- A floating exception that is not held off. -/
theorem fpException_run {s : State} (hid : s.fpp.fps.getLsbD 14 = false) (op : Word) (e : FpError) :
    fpException op e s = .error (.trap 0o244)
      { s with fpp := { s.fpp with fps := s.fpp.fps ||| 0o100000, fec := e.code, fea := op } } := by
  have hid' : (s.fpp.fps ||| 0o100000).getLsbD 14 = false := by
    rw [BitVec.getLsbD_or, hid]
    rfl
  simp only [fpException, run_bind, run_modify, run_get, hid', Bool.false_eq_true, if_false, run_throw]

theorem unpredictableVector_ne (i : Fin 6) : unpredictableVector i ≠ 0o244 := by
  revert i
  decide

theorem readWordIn_error {mode : Mode} {va : Word} {s t : State} {e : Stop} (h : readWordIn mode va s = .error e t) :
    ∃ k, e = .abort k := by
  rcases bind_error_iff.mp h with hm | ⟨m, u, -, hb⟩
  · exact ⟨.mmu, (translate_error hm).1⟩
  · rcases (busRead_error hb).2 with he | he
    · exact ⟨.timeout, he⟩
    · exact ⟨.parity, he⟩

theorem Abandoned.keeps {s t : State} (h : Abandoned s t) : t.pend = s.pend ∧ t.fpp = s.fpp := by
  obtain ⟨n, h⟩ := h
  rw [grants_eq] at h
  exact ⟨(congrArg State.pend h :), (congrArg State.fpp h :)⟩

section Manifest

variable {op : Word} {mode : Mode} {trap : Option UnpredictableTrap} {s t : State}

/-- The floating trap is one that can be met, and FER, FEC and FEA tell of it; any other leaves both units. -/
theorem manifestTrap_error {e : Stop} (h : manifestTrap op mode trap s = .error e t) : t.pend = s.pend
    ∧ ((e ≠ .trap 0o244 ∧ t.fpp = s.fpp)
      ∨ (e = .trap 0o244 ∧ ∃ x, fpTrapPossible s x = true
        ∧ t.fpp = { s.fpp with fps := s.fpp.fps ||| 0o100000, fec := x.code, fea := op })) := by
  rcases trap with _ | ⟨va, _ | _⟩ | i | i | sp
  · cases h
  · rcases bind_error_iff.mp h with hr | ⟨w, u, -, hu⟩
    · obtain ⟨k, rfl⟩ := readWordIn_error hr
      obtain ⟨hpend, hfpp⟩ := (abandoned_of_readWordIn hr).keeps
      exact ⟨hpend, .inl ⟨nofun, hfpp⟩⟩
    · cases hu
  · rcases bind_error_iff.mp h with hr | ⟨m, u, hm, hu⟩
    · obtain ⟨rfl, -⟩ := translate_error hr
      obtain ⟨hpend, hfpp⟩ := (abandoned_of_translate hr).keeps
      exact ⟨hpend, .inl ⟨nofun, hfpp⟩⟩
    · obtain rfl := (translate_ok hm).1
      simp only [run_bind, run_get] at hu
      split at hu
      · cases hu
      · cases hu
        exact ⟨rfl, .inl ⟨nofun, rfl⟩⟩
  · cases h
    exact ⟨rfl, .inl ⟨fun hv => unpredictableVector_ne i (Stop.trap.inj hv), rfl⟩⟩
  · simp only [manifestTrap, run_bind, run_get] at h
    split at h
    · next hp =>
      rw [fpException_run ((fpTrapPossible_iff s _).mp hp).2.1] at h
      cases h
      exact ⟨rfl, .inr ⟨rfl, _, hp, rfl⟩⟩
    · cases h
  · simp only [manifestTrap] at h
    split at h <;> cases h

theorem manifestTrap_ok (h : manifestTrap op mode trap s = .ok ⟨⟩ t) : t.fpp = s.fpp
    ∧ ((∀ sp, trap ≠ some (.stackOverflow sp)) → t.pend = s.pend) := by
  rcases trap with _ | ⟨va, _ | _⟩ | i | i | sp
  · cases h
    exact ⟨rfl, fun _ => rfl⟩
  · obtain ⟨w, u, hr, hu⟩ := bind_ok_iff.mp h
    cases hu
    obtain ⟨-, -, -, -, hfpp, -, -, hpend, -⟩ := readOnly_fields (readWordIn_ok hr)
    exact ⟨hfpp, fun _ => hpend⟩
  · obtain ⟨m, u, hm, hu⟩ := bind_ok_iff.mp h
    obtain rfl := (translate_ok hm).1
    simp only [run_bind, run_get] at hu
    split at hu
    · cases hu
      exact ⟨rfl, fun _ => rfl⟩
    · cases hu
  · cases h
  · simp only [manifestTrap, run_bind, run_get] at h
    split at h
    · next hp =>
      rw [fpException_run ((fpTrapPossible_iff s _).mp hp).2.1] at h
      cases h
    · cases h
      exact ⟨rfl, fun _ => rfl⟩
  · refine ⟨?_, fun hne => absurd rfl (hne sp)⟩
    simp only [manifestTrap] at h
    split at h <;> cases h <;> rfl

end Manifest

/-- Settles O58: every store in turn, then the registers, then the trap. -/
theorem unpredictableBounds : Obligations.UnpredictableBounds := by
  intro s t u op mode trap
  refine ⟨fun hmode => ?status, ?processor, fun hmode => ?memory, rfl, fun h => ?floating,
    fun h => (manifestTrap_ok h).1, fun e he h => ?others, fun sp => ?overflow,
    fun hne => ⟨fun e h => (manifestTrap_error h).1, fun h => (manifestTrap_ok h).2 hne⟩⟩
  case status =>
    obtain ⟨hps, hmmu⟩ := scribbles_keepStatus hmode s u.stores
    refine ⟨?_, fun m hm => spCell_applyUnpredictable u s hm, hmmu⟩
    show merge _ _ _ &&& _ = _
    rw [merge_and_disjoint (by decide), hps]
  case processor =>
    have h := reachedByBus_scribbles mode s u.stores
    exact ⟨h.fpp, h.cfg, h.run, h.pend, h.odt, h.lines, h.inputs⟩
  case memory =>
    exact ⟨fun hwf => scribbles_memory hmode hwf u.stores, fun hio => scribbles_keepDevices hmode hio u.stores⟩
  case floating =>
    obtain ⟨-, ⟨hne, -⟩ | ⟨-, e, hp, hfpp⟩⟩ := manifestTrap_error h
    · exact absurd rfl hne
    · obtain ⟨hpresent, hid, henables⟩ := (fpTrapPossible_iff s e).mp hp
      exact ⟨hpresent, hid, e, hfpp, henables⟩
  case others =>
    obtain ⟨-, ⟨-, hfpp⟩ | ⟨heq, -⟩⟩ := manifestTrap_error h
    · exact hfpp
    · exact absurd heq he
  case overflow =>
    simp only [manifestTrap]
    split <;> rfl

end Sys2Proof.Machine

namespace Sys2Proof.Machine

/-! The actions of console ODT (spec/70_reset_and_hazards.md R831 to R848). -/

/-! Bus cycles that ODT tries. -/

theorem attempt_of_ok {α : Type} {x : M α} {a : α} {s t : State} (h : x s = .ok a t) : attempt x s = .ok (some a) t := by
  rw [attempt, h]

theorem attempt_of_error {α : Type} {x : M α} {e : Stop} {s t : State} (h : x s = .error e t) :
    attempt x s = .ok none t := by
  rw [attempt, h]

/-! The registers of the console unit. -/

theorem consoleRcsr_eq : consoleRcsr = unmapped 0o177560 := by decide

theorem consoleRbuf_eq : consoleRbuf = unmapped (0o177560 + 2) := by decide

theorem consoleTcsr_eq : consoleTcsr = unmapped (0o177560 + 4) := by decide

theorem consoleTbuf_eq : consoleTbuf = unmapped (0o177560 + 6) := by decide

section Console

variable {s : State} (hq : s.quiet = true) (hon : s.cfg.dl1Disable = false)

include hq hon

theorem busRead_consoleRcsr : busRead consoleRcsr s = .ok s.slu1.rcsr s := by
  rw [consoleRcsr_eq]
  exact busRead_register (busGrant_quiet hq) (isAddressOf_slu_registers (u := .console) hon).1 (.inl rfl)

theorem busRead_consoleRbuf : busRead consoleRbuf s = .ok s.slu1.rbufWord { s with slu1 := s.slu1.readRbuf } := by
  rw [consoleRbuf_eq]
  exact busRead_register (busGrant_quiet hq) (isAddressOf_slu_registers (u := .console) hon).2.1 (.inl rfl)

theorem busRead_consoleTcsr : busRead consoleTcsr s = .ok s.slu1.tcsr s := by
  rw [consoleTcsr_eq]
  exact busRead_register (busGrant_quiet hq) (isAddressOf_slu_registers (u := .console) hon).2.2.1 (.inl rfl)

theorem busWrite_consoleTbuf (v : Word) : busWrite consoleTbuf .word v s
    = .ok ⟨⟩ { s with slu1 := s.slu1.writeTbuf (Config.txDelay s.free) (lowByte v), free := s.free + 1 } := by
  obtain ⟨-, -, -, ha⟩ := isAddressOf_slu_registers (u := .console) hon
  have hio := ha.isIoPage_of (.inl rfl)
  have hreg := ha.ioDecode_of (.inl rfl)
  rw [consoleTbuf_eq, busWrite, bind_of_ok (busGrant_quiet hq)]
  refine Eq.trans ?_ (writeIo_tbuf .console .word v s)
  simp only [sluAddress] at hio hreg
  simp only [writeCycle, run_bind, run_get, hio, if_true, hreg]

end Console

theorem rcsr_getLsbD_done (x : Slu) : x.rcsr.getLsbD 7 = x.rxDone := by
  rw [rcsr_eq]
  cases x.rxDone <;> cases x.rxIE <;> decide

theorem tcsr_getLsbD_ready (x : Slu) : x.tcsr.getLsbD 7 = x.txRdy := by
  rw [tcsr_eq]
  cases x.txRdy <;> cases x.txIE <;> decide

theorem getLsbD_append_low {n m : Nat} (x : BitVec n) (y : BitVec m) {i : Nat} (h : i < m) :
    (x ++ y).getLsbD i = y.getLsbD i := by
  rw [BitVec.getLsbD_append, if_pos h]

/-- The low byte of RBUF is the character. -/
theorem lowByte_rbufWord (x : Slu) : lowByte x.rbufWord = x.rbuf := by
  refine BitVec.eq_of_getLsbD_eq fun i hi => ?_
  have hlow : (lowByte x.rbufWord).getLsbD i = x.rbufWord.getLsbD i := by
    simp [lowByte, hi]
  rw [hlow]
  calc x.rbufWord.getLsbD i
    _ = (BitVec.ofBool x.ovr ++ (BitVec.ofBool x.frm ++ (BitVec.ofBool x.par ++ ((0 : BitVec 4) ++ x.rbuf)))).getLsbD i :=
      getLsbD_append_low _ _ (by omega)
    _ = (BitVec.ofBool x.frm ++ (BitVec.ofBool x.par ++ ((0 : BitVec 4) ++ x.rbuf))).getLsbD i :=
      getLsbD_append_low _ _ (by omega)
    _ = (BitVec.ofBool x.par ++ ((0 : BitVec 4) ++ x.rbuf)).getLsbD i := getLsbD_append_low _ _ (by omega)
    _ = ((0 : BitVec 4) ++ x.rbuf).getLsbD i := getLsbD_append_low _ _ (by omega)
    _ = x.rbuf.getLsbD i := getLsbD_append_low _ _ hi

theorem lowByte_setWidth (c : Byte) : lowByte (c.setWidth 16) = c := by
  refine BitVec.eq_of_getLsbD_eq fun i hi => ?_
  simp [lowByte, hi, show i < 16 by omega]

/-! Polling. -/

theorem odtStep_of_poll {s t : State} (htodo : s.odt.todo = []) (h : odtPoll s = .ok ⟨⟩ t) : odtStep s = t := by
  simp only [odtStep, htodo, h]

theorem odtStep_of_act {s t : State} {op : OdtOp} {rest : List OdtOp} (htodo : s.odt.todo = op :: rest)
    (h : odtAct op rest s = .ok ⟨⟩ t) : odtStep s = t := by
  simp only [odtStep, htodo, h]

section Poll

variable {s : State} (hq : s.quiet = true) (hon : s.cfg.dl1Disable = false)

include hq hon

theorem odtPoll_idle (h : s.slu1.rxDone = false) : odtPoll s = .ok ⟨⟩ s := by
  refine (bind_of_ok (attempt_of_ok (busRead_consoleRcsr hq hon))).trans ?_
  simp only [rcsr_getLsbD_done, h, Bool.false_eq_true, if_false]
  rfl

theorem odtPoll_character (h : s.slu1.rxDone = true) :
    odtPoll s = .ok ⟨⟩ { s with slu1 := s.slu1.readRbuf, odt := s.odt.accept s.slu1.rbuf } := by
  refine (bind_of_ok (attempt_of_ok (busRead_consoleRcsr hq hon))).trans ?_
  simp only [rcsr_getLsbD_done, h, if_true]
  refine (bind_of_ok (attempt_of_ok (busRead_consoleRbuf hq hon))).trans ?_
  simp only [lowByte_rbufWord]
  rfl

/-! Printing. -/

theorem odtAct_put_waits (h : s.slu1.txRdy = false) (c : Byte) (rest : List OdtOp) :
    odtAct (.put c) rest s = .ok ⟨⟩ s := by
  refine (bind_of_ok (attempt_of_ok (busRead_consoleTcsr hq hon))).trans ?_
  simp only [tcsr_getLsbD_ready, h, Bool.false_eq_true, if_false]
  rfl

theorem odtAct_put (h : s.slu1.txRdy = true) (c : Byte) (rest : List OdtOp) : odtAct (.put c) rest s
    = .ok ⟨⟩ { s with slu1 := s.slu1.writeTbuf (Config.txDelay s.free) c, free := s.free + 1,
                      odt := { s.odt with todo := rest } } := by
  refine (bind_of_ok (attempt_of_ok (busRead_consoleTcsr hq hon))).trans ?_
  simp only [tcsr_getLsbD_ready, h, if_true]
  refine (bind_of_ok (attempt_of_ok (busWrite_consoleTbuf hq hon (c.setWidth 16)))).trans ?_
  rw [lowByte_setWidth]
  rfl

end Poll

/-! Locations. -/

theorem readOdtLoc_odt {l : OdtLoc} {s u : State} {x : Option Word} (h : readOdtLoc l s = .ok x u) : u.odt = s.odt := by
  cases l with
  | bus a =>
    obtain ⟨w, t, hr, hread, -⟩ := attempt_busRead (odtAddr a) s
    obtain ⟨-, -, -, -, -, -, -, -, hodt, -⟩ := readOnly_fields hread
    rw [show readOdtLoc (.bus a) s = _ from hr] at h
    cases h
    exact hodt
  | reg n =>
    obtain ⟨k, hk⟩ := readReg_ok (regNumber n) s
    have hread : readOdtLoc (.reg n) s = .ok (some (s.reg (regNumber n))) { s with free := k } := bind_of_ok hk
    rw [hread] at h
    cases h
    rfl
  | ps =>
    cases h
    rfl

theorem busWrite_odt {pa : PAddr} {lane : Lane} {v : Word} {s t : State} (h : busWrite pa lane v s = .ok ⟨⟩ t) :
    t.odt = s.odt :=
  (reachedByBus_writeCycle (busWrite_ok h)).odt

theorem busWrite_error {pa : PAddr} {lane : Lane} {v : Word} {s t : State} {e : Stop}
    (h : busWrite pa lane v s = .error e t) : t = s ∨ t = s.granted := by
  rcases bind_error_iff.mp h with hg | ⟨⟨⟩, g, hg, hw⟩
  · exact .inl (busGrant_error hg).1
  · obtain ⟨rfl, -⟩ := writeCycle_error hw
    exact .inr (busGrant_ok hg).1

theorem writeOdtLoc_odt {l : OdtLoc} {v : Word} {s u : State} {x : Option Unit} (h : writeOdtLoc l v s = .ok x u) :
    u.odt = s.odt := by
  cases l with
  | bus a =>
    cases hw : busWrite (odtAddr a) .word v s with
    | ok y t =>
      rw [show writeOdtLoc (.bus a) v s = _ from attempt_of_ok hw] at h
      cases h
      exact busWrite_odt hw
    | error e t =>
      rw [show writeOdtLoc (.bus a) v s = _ from attempt_of_error hw] at h
      cases h
      rcases busWrite_error hw with rfl | rfl <;> rfl
  | reg n =>
    cases h
    rfl
  | ps =>
    cases h
    rfl

/-! The other actions. -/

/-- The answer to an error: a question mark and a new prompt (R842, R843). -/
def odtAsks : List OdtOp := puts [0o77, 0o15, 0o12, 0o100]

section Actions

variable {s u : State} {rest : List OdtOp}

/-- The state with a location open (R835). -/
def OdtLoc.openState : OdtLoc → OdtState
  | .bus _ => .s3
  | .reg _ => .s4
  | .ps => .s4

theorem odtAct_open {l : OdtLoc} {v : Word} (h : readOdtLoc l s = .ok (some v) u) :
    odtAct (.openLoc l) rest s = .ok ⟨⟩ { u with odt := { s.odt with
      state := l.openState
      opened := some l, last := some l, num := 0, haveNum := false
      todo := puts (oct6 (v.setWidth 18) ++ [0o40]) } } := by
  refine (bind_of_ok h).trans ?_
  rw [← readOdtLoc_odt h]
  cases l <;> rfl

theorem odtAct_open_fails {l : OdtLoc} (h : readOdtLoc l s = .ok none u) :
    odtAct (.openLoc l) rest s = .ok ⟨⟩ { u with odt := s.odt.toPrompt odtAsks } := by
  refine (bind_of_ok h).trans ?_
  rw [← readOdtLoc_odt h]
  rfl

theorem odtAct_deposit {l : OdtLoc} {v : Word} (h : writeOdtLoc l v s = .ok (some ⟨⟩) u) :
    odtAct (.deposit l v) rest s = .ok ⟨⟩ { u with odt := { s.odt with todo := rest } } := by
  refine (bind_of_ok h).trans ?_
  rw [← writeOdtLoc_odt h]
  rfl

theorem odtAct_deposit_fails {l : OdtLoc} {v : Word} (h : writeOdtLoc l v s = .ok none u) :
    odtAct (.deposit l v) rest s = .ok ⟨⟩ { u with odt := s.odt.toPrompt odtAsks } := by
  refine (bind_of_ok h).trans ?_
  rw [← writeOdtLoc_odt h]
  rfl

theorem selectByte_setWidth (a w : Word) :
    selectByte (a.setWidth 22) w = if a.getLsbD 0 then w.extractLsb' 8 8 else w.extractLsb' 0 8 := by
  rw [selectByte, BitVec.getLsbD_setWidth]
  rfl

theorem odtAct_dumpByte {a w : Word} (h : busRead (a.setWidth 22) s = .ok w u) :
    odtAct (.dumpByte a) rest s = .ok ⟨⟩ { u with odt := { s.odt with
      todo := .put (if a.getLsbD 0 then w.extractLsb' 8 8 else w.extractLsb' 0 8) :: rest } } := by
  obtain ⟨-, -, -, -, -, -, -, -, hodt, -⟩ := readOnly_fields (busRead_ok h).2
  refine (bind_of_ok (attempt_of_ok h)).trans ?_
  rw [← selectByte_setWidth, ← hodt]
  rfl

theorem odtAct_dumpByte_fails {a : Word} {e : Stop} (h : busRead (a.setWidth 22) s = .error e u) :
    odtAct (.dumpByte a) rest s = .ok ⟨⟩ { u with odt := s.odt.toPrompt odtAsks } := by
  refine (bind_of_ok (attempt_of_error h)).trans ?_
  rcases (busRead_error h).1 with rfl | rfl <;> rfl

end Actions

/-! Addresses (R116, R836). -/

theorem toNat_and_even (a : BitVec 18) : (a &&& (0o777776 : BitVec 18)).toNat = a.toNat / 2 * 2 := by
  have hmask : a &&& (0o777776 : BitVec 18) = (a >>> 1) <<< 1 := by
    refine BitVec.eq_of_getLsbD_eq fun i hi => ?_
    have hbit : (0o777776 : BitVec 18).getLsbD i = decide (1 ≤ i) := by
      revert i
      decide
    rw [BitVec.getLsbD_and, hbit, BitVec.getLsbD_shiftLeft, BitVec.getLsbD_ushiftRight]
    by_cases h : 1 ≤ i
    · simp [h, hi, Nat.not_lt.mpr h, Nat.add_sub_cancel' h]
    · obtain rfl : i = 0 := by omega
      simp
  have ha := a.isLt
  rw [hmask, BitVec.toNat_shiftLeft, BitVec.toNat_ushiftRight, Nat.shiftRight_eq_div_pow, Nat.shiftLeft_eq]
  omega

theorem odtAddr_eq (a : BitVec 18) :
    let even := a.toNat / 2 * 2
    odtAddr a = BitVec.ofNat 22 (if even < 0o760000 then even else even + 0o17000000) := by
  intro even
  have heven : (a &&& (0o777776 : BitVec 18)).toNat = even := toNat_and_even a
  rw [odtAddr, heven]
  split
  · refine BitVec.eq_of_toNat_eq ?_
    rw [BitVec.toNat_setWidth, heven, BitVec.toNat_ofNat]
  · rw [Nat.add_comm]

end Sys2Proof.Machine

namespace Sys2Proof.Machine

/-! The characters console ODT accepts (spec/70_reset_and_hazards.md R833 to R849). -/

theorem isOpen_iff (st : OdtState) : st.isOpen = true ↔ st = .s3 ∨ st = .s4 ∨ st = .s7 ∨ st = .s8 := by
  cases st <;> simp [OdtState.isOpen]

theorem atPrompt_iff (st : OdtState) : st.atPrompt = true ↔ st = .s1 ∨ st = .s9 := by
  cases st <;> simp [OdtState.atPrompt]

/-! Digits. -/

theorem digitOf_digit : ∀ d : BitVec 3, digitOf (0o60 + d.setWidth 8) = some d := by
  decide

theorem eq_of_digitOf {k : Byte} {d : BitVec 3} (h : digitOf k = some d) : k = 0o60 + d.setWidth 8 := by
  unfold digitOf at h
  split at h
  · next hk =>
    obtain rfl := Option.some.inj h
    refine BitVec.eq_of_toNat_eq ?_
    rw [BitVec.toNat_add, BitVec.toNat_setWidth, BitVec.extractLsb'_toNat, Nat.shiftRight_zero]
    show k.toNat = (48 + k.toNat % 2 ^ 3 % 2 ^ 8) % 2 ^ 8
    omega
  · cases h

theorem digitOf_eq_none {k : Byte} (h : ∀ d : BitVec 3, k ≠ 0o60 + d.setWidth 8) : digitOf k = none := by
  cases hd : digitOf k with
  | none => rfl
  | some d => exact absurd (eq_of_digitOf hd) (h d)

section Digits

variable {o : Odt} (c : Byte) (d : BitVec 3)

theorem digit_state_prompt (h : o.state = .s1 ∨ o.state = .s9) : (o.digit c d).state = .s5 := by
  rcases h with h | h <;> exact congrArg OdtState.afterDigit h

theorem digit_state_designator (h : o.state = .s2 ∨ o.state = .s6) : (o.digit c d).state = .s6 := by
  rcases h with h | h <;> exact congrArg OdtState.afterDigit h

theorem digit_state_same (h : o.state = .s5 ∨ o.state = .s7 ∨ o.state = .s8) : (o.digit c d).state = o.state := by
  show o.state.afterDigit = o.state
  rcases h with h | h | h <;> rw [h] <;> rfl

end Digits

section Accept

variable {o : Odt} {c : Byte} (hstate : o.state ≠ .s10)

include hstate

theorem accept_digit {d : BitVec 3} (h : c &&& 0o177 = 0o60 + d.setWidth 8) : o.accept c = o.digit c d := by
  rw [Odt.accept, if_neg hstate, h, digitOf_digit]

theorem accept_command (h : digitOf (c &&& 0o177) = none) : o.accept c = o.command c (c &&& 0o177) := by
  rw [Odt.accept, if_neg hstate, h]

end Accept

/-! Commands: what each does, and when it is not valid. -/

section Commands

variable (o : Odt) (c : Byte)

theorem command_slash : o.command c 0o57 = match slashTarget o with
    | some l => { o with todo := [.put c, .openLoc l] }
    | none => o.invalid c := if_pos rfl

theorem command_return : o.command c 0o15 =
    if o.state.isOpen then o.toPrompt (.put c :: (pendingDeposit o ++ promptLine)) else o.invalid c := by
  cases h : o.state.isOpen <;> simp [Odt.command, ascSlash, ascCr, ascLf, ascR, h]

theorem command_lineFeed : o.command c 0o12 =
    if o.state.isOpen then o.toPrompt (pendingDeposit o ++ (promptLine ++ nextLocation o.opened)) else o.invalid c := by
  cases h : o.state.isOpen <;> simp [Odt.command, ascSlash, ascCr, ascLf, ascR, h]

theorem command_designator {k : Byte} (hk : k = 0o122 ∨ k = 0o44) : o.command c k =
    if o.state.atPrompt then { o with state := .s2, num := 0, haveNum := false, desig := none, todo := [.put c] }
    else o.invalid c := by
  rcases hk with rfl | rfl <;> cases h : o.state.atPrompt <;> simp [Odt.command, ascSlash, ascCr, ascLf, ascR, h]

theorem command_status : o.command c 0o123 =
    if o.state = .s2 ∨ o.state = .s6 then
      { o with state := .s6, num := 0, haveNum := false, desig := some .ps, todo := [.put c] }
    else o.invalid c := by
  simp [Odt.command, ascSlash, ascCr, ascLf, ascR]

theorem command_go : o.command c 0o107 =
    if o.state.atPrompt ∨ o.state = .s5 then { o with todo := [.put c, .put 0, .put 0, .go] } else o.invalid c := by
  simp [Odt.command, ascSlash, ascCr, ascLf, ascR]

theorem command_proceed : o.command c 0o120 =
    if o.state.atPrompt then { o with todo := [.put c, .proceed] } else o.invalid c := by
  simp [Odt.command, ascSlash, ascCr, ascLf, ascR]

theorem command_dump : o.command c 0o23 =
    if o.state.atPrompt then { o with state := .s10, dumpHi := none, todo := [.put c] } else o.invalid c := by
  simp [Odt.command, ascSlash, ascCr, ascLf, ascR]

theorem command_help : o.command c 0o110 =
    if o.state.atPrompt then { o with todo := [.put c, .put 0o100] } else o.invalid c := by
  simp [Odt.command, ascSlash, ascCr, ascLf, ascR, ascPrompt]

theorem command_other {k : Byte} (hk : k ∉ [0o57, 0o15, 0o12, 0o122, 0o44, 0o123, 0o107, 0o120, 0o23, 0o110]) :
    o.command c k = o.invalid c := by
  simp only [List.mem_cons, List.not_mem_nil, or_false, not_or] at hk
  simp only [Odt.command, ascSlash, ascCr, ascLf, ascR, hk, false_and, or_self, if_false]

end Commands

/-! Prompts. -/

theorem promptState_eq (o : Odt) : promptState o = if o.last = none then .s1 else .s9 := by
  unfold promptState
  cases o.last <;> rfl

theorem toPrompt_eq (o : Odt) (todo : List OdtOp) : o.toPrompt todo =
    { state := if o.last = none then .s1 else .s9, opened := none, last := o.last, num := 0, haveNum := false,
      desig := none, dumpHi := none, todo := todo } := by
  rw [Odt.toPrompt, promptState_eq]

theorem notEchoed_iff (k : Byte) : notEchoed k = true ↔ k ∈ ([0, 2, 0o10, 0o12] : List Byte) := by
  simp [notEchoed, or_assoc]

/-- An invalid character is echoed, if it is one that is, and answered with a question mark (R843). -/
theorem invalid_eq (o : Odt) (c : Byte) :
    o.invalid c = o.toPrompt ((if c &&& 0o177 ∈ ([0, 2, 0o10, 0o12] : List Byte) then [] else [.put c]) ++ odtAsks) := by
  simp only [Odt.invalid, notEchoed_iff]
  rfl

theorem invalid_of_echoed {o : Odt} {c : Byte} (h : c &&& 0o177 ∉ ([0, 2, 0o10, 0o12] : List Byte)) :
    o.invalid c = o.toPrompt (.put c :: odtAsks) := by
  rw [invalid_eq, if_neg h]
  rfl

/-! What a slash opens (R835, R839). -/

theorem slashTarget_designator {o : Odt} {d : BitVec 3} (hstate : o.state = .s6) (hd : o.desig = some (.digit d)) :
    slashTarget o = some (if o.num &&& 0o777 = 0o77 ∨ o.num &&& 0o777 = 0o477 then .ps else .reg d) := by
  simp only [slashTarget, hstate, designated, hd]
  split <;> rfl

theorem slashTarget_eq_none {o : Odt} (h : o.state = .s1 ∨ o.state = .s2
    ∨ (o.state = .s3 ∨ o.state = .s4 ∨ o.state = .s7 ∨ o.state = .s8)
    ∨ (o.state = .s6 ∧ o.desig = none) ∨ (o.state = .s9 ∧ o.last = none)) : slashTarget o = none := by
  rcases h with h | h | (h | h | h | h) | ⟨h, hnone⟩ | ⟨h, hnone⟩
  · simp only [slashTarget, h]
  · simp only [slashTarget, h]
  · simp only [slashTarget, h]
  · simp only [slashTarget, h]
  · simp only [slashTarget, h]
  · simp only [slashTarget, h]
  · simp only [slashTarget, h, designated, hnone]
  · simp only [slashTarget, h, hnone]

/-! A dump (R848). -/

theorem dumpOps_eq (a : Word) : dumpOps a = (List.range 8).map fun i => .dumpByte (a + BitVec.ofNat 16 i) := by
  simp [dumpOps, List.range_succ]

theorem accept_dump {o : Odt} (hstate : o.state = .s10) (c : Byte) : o.accept c = o.dumpAddress c :=
  if_pos hstate

theorem step_halted {s : State} (h : (tick s).run = .halted) : step s = .next (odtStep (tick s)) := by
  have hpower : s.run ≠ .poweredDown ∨ s.inputs ≠ [] := by
    by_cases hi : s.inputs = []
    · rw [← tick_run_of_no_inputs hi, h]
      exact .inl nofun
    · exact .inr hi
  rw [step_of_tick hpower (by rw [h]; exact nofun), runStateStep, h]

/-- Settles O60: the actions by the bus cycles they try, the characters by the equation of their command. -/
theorem odtCommands : Obligations.OdtCommands := by
  intro s hq hon prompt asks line
  have hprompt (o : Odt) (todo : List OdtOp) : o.toPrompt todo = prompt o todo := toPrompt_eq o todo
  refine ⟨step_halted, fun htodo h => odtStep_of_poll htodo (odtPoll_idle hq hon h),
    fun htodo h => ⟨_, odtStep_of_poll htodo (odtPoll_character hq hon h), rfl⟩,
    fun c rest htodo => ⟨fun h => odtStep_of_act htodo (odtAct_put_waits hq hon h c rest),
      fun h => ⟨_, _, odtStep_of_act htodo (odtAct_put hq hon h c rest), rfl, rfl⟩⟩,
    fun l rest htodo => ⟨fun v u h => odtStep_of_act htodo (odtAct_open h), fun u h => ?openFails⟩,
    fun l v rest htodo => ⟨fun u h => odtStep_of_act htodo (odtAct_deposit h), fun u h => ?depositFails⟩,
    fun a v => ?location, fun rest htodo => ?proceed, fun rest htodo => ?go,
    fun a rest htodo => ⟨fun w u h => odtStep_of_act htodo (odtAct_dumpByte h), fun e u h => ?dumpFails⟩,
    fun o c hstate => ?dumpAddress, fun o c hstate => ?characters⟩
  case openFails =>
    rw [← hprompt]
    exact odtStep_of_act htodo (odtAct_open_fails h)
  case depositFails =>
    rw [← hprompt]
    exact odtStep_of_act htodo (odtAct_deposit_fails h)
  case dumpFails =>
    rw [← hprompt]
    exact odtStep_of_act htodo (odtAct_dumpByte_fails h)
  case location =>
    intro even pa
    have haddr : odtAddr a = pa := odtAddr_eq a
    rw [← haddr]
    exact ⟨rfl, rfl, fun h => attempt_of_ok (busRead_plain (busGrant_quiet hq) h)⟩
  case proceed =>
    rw [← hprompt]
    exact odtStep_of_act htodo rfl
  case go =>
    rw [odtStep_of_act htodo (t := stateOf (odtGo s)) rfl]
    rfl
  case dumpAddress =>
    rw [accept_dump hstate]
    refine ⟨fun hnone => by rw [Odt.dumpAddress, hnone], fun hi hsome => ?_⟩
    rw [Odt.dumpAddress, hsome, ← hprompt, ← dumpOps_eq]
    rfl
  case characters =>
    intro k isOpen atPrompt stores
    have hopen : o.state.isOpen = true ↔ isOpen := isOpen_iff o.state
    have hat : o.state.atPrompt = true ↔ atPrompt := atPrompt_iff o.state
    have hstores {l : OdtLoc} (ho : o.opened = some l) : pendingDeposit o = stores l := by
      rw [pendingDeposit, ho]
    have hcommand {x : Byte} (hk : k = x) (hx : digitOf x = none) : o.accept c = o.command c x := by
      subst hk
      exact accept_command hstate hx
    have hinvalid : o.invalid c = prompt o ((if k ∈ [0, 2, 0o10, 0o12] then [] else [.put c]) ++ asks) :=
      (invalid_eq o c).trans (hprompt _ _)
    refine ⟨fun d hk => ?digit, fun hk => ?slash, fun l hk ho hl => ?carriage, fun hk ho => ?lineFeed,
      fun hk hp => ?designator, fun hk hs => ?status, fun hk hp => ?go, fun hk hp => ?proceed, fun hk hp => ?dump,
      fun hk hp => ?help, fun h => ?invalid⟩
    case digit =>
      intro t
      have ht : t = o.digit c d := accept_digit hstate hk
      rw [ht]
      exact ⟨rfl, rfl, rfl, rfl, rfl, digit_state_prompt c d, fun h => congrArg OdtState.afterDigit h,
        fun h => congrArg OdtState.afterDigit h, fun h => ⟨digit_state_designator c d h, if_pos h⟩,
        digit_state_same c d⟩
    case slash =>
      have hslash := (hcommand hk rfl).trans (command_slash o c)
      have hopens {l : OdtLoc} (hl : slashTarget o = some l) : o.accept c = { o with todo := [.put c, .openLoc l] } := by
        rw [hslash, hl]
      refine ⟨fun hs => hopens ?_, fun hs hd => hopens ?_, fun d hs hd => hopens (slashTarget_designator hs hd),
        fun l hs hl => hopens ?_, fun h => ?_⟩
      · rw [slashTarget, hs]
      · rw [slashTarget, hs, designated, hd]
      · rw [slashTarget, hs, hl]
      · rw [hslash, slashTarget_eq_none h, ← hprompt]
        exact invalid_of_echoed (by rw [show c &&& 0o177 = 0o57 from hk]; decide)
    case carriage =>
      rw [hcommand hk rfl, command_return, if_pos (hopen.mpr ho), hstores hl]
      exact hprompt _ _
    case lineFeed =>
      have hclose := (hcommand hk rfl).trans ((command_lineFeed o c).trans (if_pos (hopen.mpr ho)))
      refine ⟨fun a ha => ?_, fun n hn => ?_, fun hps => ?_⟩
      · intro next
        rw [hclose, hstores ha, ha, ← hprompt, List.append_assoc, List.append_assoc]
        rfl
      · rw [hclose, hstores hn, hn, ← hprompt, List.append_assoc, List.append_assoc]
        rfl
      · rw [hclose, hstores hps, hps, ← hprompt, nextLocation, List.append_nil]
        rfl
    case designator =>
      have hnone : digitOf k = none := by rcases hk with hk | hk <;> rw [hk] <;> rfl
      rw [hcommand rfl hnone, command_designator o c hk, if_pos (hat.mpr hp)]
    case status =>
      rw [hcommand hk rfl, command_status, if_pos hs]
    case go =>
      rw [hcommand hk rfl, command_go, if_pos (hp.imp_left hat.mpr)]
    case proceed =>
      rw [hcommand hk rfl, command_proceed, if_pos (hat.mpr hp)]
    case dump =>
      rw [hcommand hk rfl, command_dump, if_pos (hat.mpr hp)]
    case help =>
      rw [hcommand hk rfl, command_help, if_pos (hat.mpr hp)]
    case invalid =>
      rw [← hinvalid]
      rw [← hopen, ← hat] at h
      rcases h with ⟨hk | hk, hclosed⟩ | ⟨hk, hp⟩ | ⟨hk, hs⟩ | ⟨hk, hp, hs⟩ | ⟨hdigit, hother⟩
      · rw [hcommand hk rfl, command_return, if_neg hclosed]
      · rw [hcommand hk rfl, command_lineFeed, if_neg hclosed]
      · rcases hk with hk | hk | hk | hk | hk
        · rw [hcommand hk rfl, command_designator o c (.inl rfl), if_neg hp]
        · rw [hcommand hk rfl, command_designator o c (.inr rfl), if_neg hp]
        · rw [hcommand hk rfl, command_proceed, if_neg hp]
        · rw [hcommand hk rfl, command_dump, if_neg hp]
        · rw [hcommand hk rfl, command_help, if_neg hp]
      · rw [hcommand hk rfl, command_status, if_neg (not_or.mpr hs)]
      · rw [hcommand hk rfl, command_go, if_neg (not_or.mpr ⟨hp, hs⟩)]
      · rw [hcommand rfl (digitOf_eq_none hdigit), command_other o c hother]

end Sys2Proof.Machine
